-- ==== Sys2Proof/Word.lean ====
section
/-! DEFINITION. Word.lean: the bit-vector abbreviations of the model (spec/00_scope.md R6, R10) and their plainest arithmetic. -/
namespace Sys2Proof

/-- One byte. -/
abbrev Byte := BitVec 8
/-- A 32-bit element of a window, an accumulator or a summary slot. -/
abbrev Word32 := BitVec 32
/-- A 64-bit count, sequence number or fabric time. -/
abbrev Word64 := BitVec 64
/-- A 56-bit global address (R246). -/
abbrev GAddr := BitVec 56
/-- A 48-bit stroke index (R10). -/
abbrev Stroke := BitVec 48
/-- A granule of 128 bytes (R217). -/
abbrev Granule := BitVec 1024

end Sys2Proof
end

