-- ==== Sys2Proof/Machine/Memory.lean ====
section
/-! DEFINITION. Memory.lean: byte memories and sparse tables as plain data in one canonical form: keys strictly rising, and no
entry that equals what an unlisted key reads as. Byte order is little-endian throughout (spec/00_scope.md R6). -/
namespace Sys2Proof.Machine

/-! ## Bytes and bit fields -/

/-- The number that a byte string holds, least significant byte first (R6). -/
def leNat : List Byte → Nat
  | [] => 0
  | b :: r => b.toNat + 256 * leNat r

/-- The n low bytes of a number, least significant first (R6). -/
def leBytes : Nat → Nat → List Byte
  | 0, _ => []
  | n + 1, v => BitVec.ofNat 8 v :: leBytes n (v / 256)

/-- Bits [hi:lo] of a number. -/
def bitsOf (v hi lo : Nat) : Nat := (v >>> lo) % 2 ^ (hi + 1 - lo)

/-- The bytes of a granule. -/
def granuleBytes (g : Granule) : List Byte := leBytes 128 g.toNat

/-- A granule from its bytes. -/
def granuleOf (bs : List Byte) : Granule := BitVec.ofNat 1024 (leNat bs)

/-- A list cut into pieces of k elements, at most n of them. -/
def chunksOf {α : Type} (k : Nat) : Nat → List α → List (List α)
  | 0, _ => []
  | n + 1, l => if l.isEmpty then [] else l.take k :: chunksOf k n (l.drop k)

/-- A list padded to n elements, or cut to n. -/
def padTo {α : Type} (n : Nat) (d : α) (l : List α) : List α := (l ++ List.replicate (n - l.length) d).take n

/-! ## Byte memory -/

/-- A byte memory: (address, byte) pairs in canonical form; an unlisted address reads as zero (R182, R404, R416). -/
abbrev Memory := List Host.Cell

/-- The canonical form: addresses strictly rising, and no listed byte zero. -/
abbrev Memory.wf (m : Memory) : Prop := m.Pairwise (fun a b => a.1 < b.1) ∧ ∀ c ∈ m, c.2 ≠ 0#8

/-- The byte at an address. -/
def Memory.read (m : Memory) (a : Nat) : Byte :=
  match m.find? (fun c => c.1 == a) with
  | some c => c.2
  | none => 0#8

/-- The cells of a byte string placed at an address, without its zero bytes. -/
def cellsAt : Nat → List Byte → List Host.Cell
  | _, [] => []
  | a, b :: r => if b = 0#8 then cellsAt (a + 1) r else (a, b) :: cellsAt (a + 1) r

/-- A byte string written at an address. -/
def Memory.write (m : Memory) (a : Nat) (bs : List Byte) : Memory :=
  m.filter (fun c => c.1 < a) ++ cellsAt a bs ++ m.filter (fun c => a + bs.length ≤ c.1)

/-- The cells of an address range. -/
def Memory.slice (m : Memory) (a n : Nat) : Memory := m.filter (fun c => a ≤ c.1 && c.1 < a + n)

/-- The bytes of a range whose cells are listed in rising order. -/
def bytesFrom : Nat → Nat → List Host.Cell → List Byte
  | 0, _, _ => []
  | n + 1, a, [] => 0#8 :: bytesFrom n (a + 1) []
  | n + 1, a, c :: r => if c.1 = a then c.2 :: bytesFrom n (a + 1) r else 0#8 :: bytesFrom n (a + 1) (c :: r)

/-- n bytes from an address. -/
def Memory.readN (m : Memory) (a n : Nat) : List Byte := bytesFrom n a (m.slice a n)

/-- The little-endian number in n bytes from an address. -/
def Memory.readNat (m : Memory) (a n : Nat) : Nat := leNat (m.readN a n)

/-- A range set to zero. -/
def Memory.zero (m : Memory) (a n : Nat) : Memory := m.filter (fun c => !(a ≤ c.1 && c.1 < a + n))

/-- Move the cells of a range by a signed distance, for a frame that is relocated. -/
def Memory.copyRange (m : Memory) (src dst n : Nat) : Memory := m.write dst (m.readN src n)

/-! ## Sparse tables -/

/-- A table by number in canonical form: keys strictly rising. -/
abbrev SMap (α : Type) := List (Nat × α)

/-- The canonical form of a sparse table. -/
abbrev SMap.wf {α : Type} (m : SMap α) : Prop := m.Pairwise (fun a b => a.1 < b.1)

/-- The entry of a key, if listed. -/
def SMap.find {α : Type} (m : SMap α) (k : Nat) : Option α := (m.find? (fun c => c.1 == k)).map (·.2)

/-- The entry of a key, or the value an unlisted key has. -/
def SMap.get {α : Type} (m : SMap α) (k : Nat) (d : α) : α := (m.find k).getD d

/-- A key removed. -/
def SMap.erase {α : Type} (m : SMap α) (k : Nat) : SMap α := m.filter (fun c => c.1 != k)

/-- An entry put at a key. -/
def SMap.insert {α : Type} (m : SMap α) (k : Nat) (v : α) : SMap α :=
  m.filter (fun c => c.1 < k) ++ (k, v) :: m.filter (fun c => k < c.1)

/-- A value put at a key; the value an unlisted key has removes the entry. -/
def SMap.set {α : Type} [DecidableEq α] (m : SMap α) (k : Nat) (v d : α) : SMap α :=
  if v = d then m.erase k else m.insert k v

/-- An entry changed if it is listed. -/
def SMap.modify {α : Type} (m : SMap α) (k : Nat) (f : α → α) : SMap α :=
  m.map fun c => if c.1 = k then (c.1, f c.2) else c

/-- A number added to a set of numbers. -/
def setInsert (l : List Nat) (k : Nat) : List Nat := if l.contains k then l else k :: l

end Sys2Proof.Machine
end

