-- ==== Sys2Proof/Config.lean ====
section
/-! DEFINITION. Config.lean: the free values of the model. Each is an opaque constant without a body, so that no proof can see a
value of it: what the spec leaves open (notes/assumptions), and the standard functions of cryptography that the spec names but
does not define (SHA3-512, ML-DSA-87, ML-KEM-1024, AES-256-GCM, HKDF, the entropy source). -/
namespace Sys2Proof

/-- The vector functions of Table 6.5 whose result the spec fixes only to within a bound. -/
inductive VFun where
  | rsqrt
  | exp
  | exp2
  | log
  | log2
  | tanh
  | sigm
  | silu
deriving DecidableEq, Repr

namespace Config

/-- The bits that the hardware gives for a function of Table 6.5 on an input, before the error bound is applied: the same on
every VE of every stepping (Table 6.5's closing note), free within the bound (DESIGN CHOICE, notes/assumptions/1.md). -/
opaque vfun : VFun → Word32 → Word32

/-- A fresh value of the model's free-value counter (State.free), as a natural number: choices that R274 and other rules leave
open take it (notes/assumptions/2.md). -/
opaque freeNat : Nat → Nat

/-- SHA3-512 of a byte string (R389, R398, R411, R501): a standard function, uninterpreted. -/
opaque sha3 : List Byte → BitVec 512

/-- ML-DSA-87 verification: public key, message, signature (R350, R501). -/
opaque mldsaVerify : BitVec 20736 → List Byte → BitVec 37016 → Bool

/-- ML-DSA-87 signing with the module's identity key, by the identity hash: message to signature (R351, R515). -/
opaque mldsaSign : BitVec 512 → List Byte → BitVec 37016

/-- The ML-DSA-87 public key of the module with an identity hash (R350). -/
opaque idPubKey : BitVec 512 → BitVec 20736

/-- ML-KEM-1024 encapsulation to a public key with the free-value counter as randomness: ciphertext and shared secret. -/
opaque mlkemEncaps : BitVec 12544 → Nat → BitVec 12544 × BitVec 256

/-- ML-KEM-1024 decapsulation with the module's ephemeral key of a counter value, of a ciphertext: shared secret. -/
opaque mlkemDecaps : Nat → BitVec 12544 → BitVec 256

/-- The ephemeral ML-KEM-1024 public key the module generates at a value of the free-value counter. -/
opaque mlkemKey : Nat → BitVec 12544

/-- 256 fresh random bits at a value of the free-value counter (nonces, R350). -/
opaque random256 : Nat → BitVec 256

/-- HKDF or KMAC: a 256-bit key derived from a secret and a context (R352, R510, R519). -/
opaque kdf : BitVec 512 → List Byte → BitVec 256

/-- The AES-256-GCM ciphertext of a key, a nonce and plaintext bytes (R319). -/
opaque gcmCipher : BitVec 256 → Nat → List Byte → List Byte

/-- The AES-256-GCM tag of a key, a nonce, associated data and plaintext bytes (R352, R427, R519). -/
opaque gcmTag : BitVec 256 → Nat → List Byte → List Byte → BitVec 128

/-- The bytes of a FIRMWARE section of a version, a measurement and a signature; its format is not an interface (R391). -/
opaque firmwareBytes : BitVec 64 → BitVec 512 → BitVec 37016 → List Byte

/-- The ML-KEM-1024 encapsulation key that an EPOCH_SEED gives (R502). -/
opaque epochKey : BitVec 512 → BitVec 12544

/-- ML-KEM-1024 decapsulation under the key pair of an EPOCH_SEED (R504). -/
opaque epochDecaps : BitVec 512 → BitVec 12544 → BitVec 256

/-- AES-256-GCM decryption of a 48-byte tenant root: key, associated data, ciphertext and tag; none where the tag fails (R504). -/
opaque openRoot : BitVec 256 → List Byte → BitVec 384 → Option (BitVec 256)

/-- The five bytes that fill the 12-byte part number of LABEL behind a part number of seven characters (Table 22.5 gives no filler). -/
opaque labelFill : BitVec 40

end Config
end Sys2Proof
end

