-- ==== Sys2Proof/Machine/Fp.lean ====
section
/-! DEFINITION. Fp.lean: the number formats of spec/05_number_formats.md and the arithmetic on FP32 of spec/06 (Tables 6.4 and
6.5): every operation is computed exactly on integers and rounded once, to nearest, ties to even (R140). -/
namespace Sys2Proof.Machine

/-- A binary floating-point layout: exponent width, fraction width and bias (Tables 5.2 and 5.4). -/
structure Fmt where
  ew   : Nat
  mw   : Nat
  bias : Nat
deriving DecidableEq, Repr

/-- BF16 (Table 5.4). -/
def Fmt.bf16 : Fmt := ⟨8, 7, 127⟩
/-- FP16 (Table 5.4). -/
def Fmt.fp16 : Fmt := ⟨5, 10, 15⟩
/-- FP32 (Table 5.4). -/
def Fmt.fp32 : Fmt := ⟨8, 23, 127⟩
/-- E4M3 (Table 5.2). -/
def Fmt.e4m3 : Fmt := ⟨4, 3, 7⟩
/-- E5M2 (Table 5.2). -/
def Fmt.e5m2 : Fmt := ⟨5, 2, 15⟩
/-- E3M2 (Table 5.2). -/
def Fmt.e3m2 : Fmt := ⟨3, 2, 3⟩
/-- E2M3 (Table 5.2). -/
def Fmt.e2m3 : Fmt := ⟨2, 3, 1⟩
/-- E2M1 (Table 5.2). -/
def Fmt.e2m1 : Fmt := ⟨2, 1, 1⟩

/-- A decoded value: a NaN, a signed infinity, or the number ± m × 2^e. -/
inductive Fl where
  | nan
  | inf (neg : Bool)
  | fin (neg : Bool) (m : Nat) (e : Int)
deriving DecidableEq, Repr

/-- The per-element outcome counts of Table 6.6 (indices 0 to 6). -/
structure StatCounts where
  invalid  : Nat
  divZero  : Nat
  overflow : Nat
  wrap     : Nat
  saturate : Nat
  clamp    : Nat
  nanOut   : Nat
deriving DecidableEq, Repr

/-- No count raised. -/
def StatCounts.zero : StatCounts := ⟨0, 0, 0, 0, 0, 0, 0⟩

/-- The sum of two outcome counts. -/
def StatCounts.add (a b : StatCounts) : StatCounts :=
  ⟨a.invalid + b.invalid, a.divZero + b.divZero, a.overflow + b.overflow, a.wrap + b.wrap, a.saturate + b.saturate,
   a.clamp + b.clamp, a.nanOut + b.nanOut⟩

/-- A 32-bit count saturates at 0xFFFF_FFFF (R160). -/
def satCount32 (n : Nat) : Nat := min n 0xFFFFFFFF

/-- R160: every status count is a saturating unsigned 32-bit count. -/
def StatCounts.saturated (a : StatCounts) : StatCounts :=
  ⟨satCount32 a.invalid, satCount32 a.divZero, satCount32 a.overflow, satCount32 a.wrap, satCount32 a.saturate,
   satCount32 a.clamp, satCount32 a.nanOut⟩

/-- Count `i` of Table 6.6; index 7 reads as 0. -/
def StatCounts.get (a : StatCounts) (i : Nat) : Nat :=
  match i with
  | 0 => a.invalid
  | 1 => a.divZero
  | 2 => a.overflow
  | 3 => a.wrap
  | 4 => a.saturate
  | 5 => a.clamp
  | 6 => a.nanOut
  | _ => 0

/-- One element of a result, and what it counts. -/
structure ElRes where
  val : Word32
  st  : StatCounts
deriving DecidableEq, Repr

/-- A result element that counts nothing. -/
def ElRes.plain (v : Word32) : ElRes := ⟨v, .zero⟩

/-! ## Decoding and rounding -/

/-- Exponent field of all ones. -/
def Fmt.expMax (f : Fmt) : Nat := 2 ^ f.ew - 1

/-- The magnitude code of the largest finite value of an IEEE format plus one: the code of infinity. -/
def Fmt.infCode (f : Fmt) : Nat := f.expMax * 2 ^ f.mw

/-- The weight exponent of the last place of the subnormals. -/
def Fmt.qmin (f : Fmt) : Int := 1 - (f.bias : Int) - (f.mw : Int)

/-- A magnitude code read as a number, with no code special (R129): significand and exponent. -/
def Fmt.magOf (f : Fmt) (code : Nat) : Nat × Int :=
  let ex := code / 2 ^ f.mw
  let fr := code % 2 ^ f.mw
  if ex = 0 then (fr, f.qmin) else (2 ^ f.mw + fr, f.qmin + (ex : Int) - 1)

/-- Shift right by d places rounding to nearest, ties to even (R140). -/
def shiftRne (m d : Nat) : Nat :=
  if d = 0 then m else
    let t := m >>> d
    let r := m - t <<< d
    let h := 1 <<< (d - 1)
    if r > h ∨ (r = h ∧ t % 2 = 1) then t + 1 else t

/-- The magnitude code nearest to m × 2^e, ties to even, with the exponent unbounded above (R140). -/
def Fmt.roundMag (f : Fmt) (m : Nat) (e : Int) : Nat :=
  if m = 0 then 0 else
    let q := max (e + (Nat.log2 m : Int) - (f.mw : Int)) f.qmin
    let t := if e ≥ q then m <<< (e - q).toNat else shiftRne m (q - e).toNat
    (q - f.qmin).toNat * 2 ^ f.mw + t

/-- The bits of an IEEE format decoded (R135). -/
def Fmt.toFl (f : Fmt) (b : Nat) : Fl :=
  let neg := b.testBit (f.ew + f.mw)
  let mag := b % 2 ^ (f.ew + f.mw)
  if mag > f.infCode then .nan
  else if mag = f.infCode then .inf neg
  else let p := f.magOf mag; .fin neg p.1 p.2

/-- The sign bit of an IEEE format in place. -/
def Fmt.signBits (f : Fmt) (neg : Bool) : Nat := if neg then 2 ^ (f.ew + f.mw) else 0

/-- A finite value rounded into an IEEE format, and whether it overflowed to infinity (R140). -/
def Fmt.ofFin (f : Fmt) (neg : Bool) (m : Nat) (e : Int) : Nat × Bool :=
  let c := f.roundMag m e
  if c ≥ f.infCode then (f.signBits neg + f.infCode, true) else (f.signBits neg + c, false)

/-- The default NaN of an IEEE format (Table 5.4). -/
def Fmt.defaultNaN (f : Fmt) : Nat := f.infCode + 2 ^ (f.mw - 1)

/-- A decoded value as FP32 with its counts: overflow to infinity is counted (Table 6.6 count 2). -/
def fl32 (x : Fl) : ElRes :=
  match x with
  | .nan => ⟨0x7FC00000#32, { StatCounts.zero with nanOut := 1 }⟩
  | .inf neg => .plain (if neg then 0xFF800000#32 else 0x7F800000#32)
  | .fin neg m e =>
    let r := Fmt.fp32.ofFin neg m e
    ⟨BitVec.ofNat 32 r.1, { StatCounts.zero with overflow := r.2.toNat }⟩

/-- FP32 bits decoded. -/
def dec32 (b : Word32) : Fl := Fmt.fp32.toFl b.toNat

/-- Is an FP32 pattern a NaN (R135)? -/
def isNaN (b : Word32) : Bool := (b &&& 0x7FFFFFFF#32).toNat > 0x7F800000

/-- Is an FP32 pattern a signalling NaN (R135)? -/
def isSNaN (b : Word32) : Bool := isNaN b && !b.getLsbD 22

/-- A NaN with its quiet bit set (R137). -/
def quiet (b : Word32) : Word32 := b ||| 0x00400000#32

/-- The default NaN of an invalid operation, counted (R137, R160). -/
def invalidRes : ElRes := ⟨0x7FC00000#32, { StatCounts.zero with invalid := 1, nanOut := 1 }⟩

/-- The first NaN operand, quietened; a signalling operand counts as invalid (R137, R160). -/
def nanRes (ops : List Word32) : Option ElRes :=
  (ops.find? isNaN).map fun n =>
    ⟨quiet n, { StatCounts.zero with invalid := (ops.any isSNaN).toNat, nanOut := 1 }⟩

/-- An operation on operands that are not NaN, and the NaN rule of R137 before it. -/
def withNaN (ops : List Word32) (r : ElRes) : ElRes := (nanRes ops).getD r

/-! ## Sums, products, quotients -/

/-- The signed integer ±m. -/
def sgn (neg : Bool) (m : Nat) : Int := if neg then -(m : Int) else m

/-- The exact sum of two finite values; an exact zero is −0 only if both are negative (R138). -/
def addFin (n1 : Bool) (m1 : Nat) (e1 : Int) (n2 : Bool) (m2 : Nat) (e2 : Int) : Fl :=
  let e := min e1 e2
  let s := sgn n1 (m1 <<< (e1 - e).toNat) + sgn n2 (m2 <<< (e2 - e).toNat)
  .fin (if s = 0 then n1 && n2 else s < 0) s.natAbs e

/-- The sum of two decoded values that are not NaN (∞ − ∞ is NaN). -/
def Fl.add (a b : Fl) : Fl :=
  match a, b with
  | .fin n1 m1 e1, .fin n2 m2 e2 => addFin n1 m1 e1 n2 m2 e2
  | .inf n1, .inf n2 => if n1 = n2 then .inf n1 else .nan
  | .inf n, .fin _ _ _ => .inf n
  | .fin _ _ _, .inf n => .inf n
  | _, _ => .nan

/-- The exact product of two decoded values that are not NaN (0 × ∞ is NaN). -/
def Fl.mul (a b : Fl) : Fl :=
  match a, b with
  | .fin n1 m1 e1, .fin n2 m2 e2 => .fin (n1 != n2) (m1 * m2) (e1 + e2)
  | .inf n1, .inf n2 => .inf (n1 != n2)
  | .inf n1, .fin n2 m _ => if m = 0 then .nan else .inf (n1 != n2)
  | .fin n1 m _, .inf n2 => if m = 0 then .nan else .inf (n1 != n2)
  | _, _ => .nan

/-- The negated value. -/
def Fl.neg (a : Fl) : Fl :=
  match a with
  | .nan => .nan
  | .inf n => .inf !n
  | .fin n m e => .fin (!n) m e

/-- A result of non-NaN operands: a NaN here is an invalid operation. -/
def resOf (x : Fl) : ElRes := if x = .nan then invalidRes else fl32 x

/-- FADD (Table 6.4 0x01). -/
def fAdd (a b : Word32) : ElRes := withNaN [a, b] (resOf ((dec32 a).add (dec32 b)))

/-- FSUB (0x02). -/
def fSub (a b : Word32) : ElRes := withNaN [a, b] (resOf ((dec32 a).add (dec32 b).neg))

/-- FMUL (0x03). -/
def fMul (a b : Word32) : ElRes := withNaN [a, b] (resOf ((dec32 a).mul (dec32 b)))

/-- FFMA (0x04): one rounding; 0 × ∞ + C is the default NaN whatever C is (R137). -/
def fFma (a b c : Word32) : ElRes :=
  if !isNaN a && !isNaN b && (dec32 a).mul (dec32 b) = .nan then invalidRes
  else withNaN [a, b, c] (resOf (((dec32 a).mul (dec32 b)).add (dec32 c)))

/-- The quotient of two finite nonzero significands with a sticky last bit: 61 more binary places than the operands. -/
def quotSticky (m1 m2 : Nat) : Nat := 2 * ((m1 <<< 60) / m2) + (if (m1 <<< 60) % m2 = 0 then 0 else 1)

/-- FDIV (0x05): the IEEE quotient; finite nonzero over zero is an infinity counted as a division by zero. -/
def fDiv (a b : Word32) : ElRes :=
  withNaN [a, b] (
    match dec32 a, dec32 b with
    | .inf _, .inf _ => invalidRes
    | .inf n1, .fin n2 _ _ => fl32 (.inf (n1 != n2))
    | .fin n1 _ _, .inf n2 => fl32 (.fin (n1 != n2) 0 0)
    | .fin n1 m1 e1, .fin n2 m2 e2 =>
      if m2 = 0 then
        if m1 = 0 then invalidRes
        else ⟨(fl32 (.inf (n1 != n2))).val, { StatCounts.zero with divZero := 1 }⟩
      else if m1 = 0 then fl32 (.fin (n1 != n2) 0 0)
      else fl32 (.fin (n1 != n2) (quotSticky m1 m2) (e1 - e2 - 61))
    | _, _ => invalidRes)

/-! ## Order -/

/-- A key that orders the non-NaN FP32 patterns by value, with −0 and +0 equal. -/
def key32 (b : Word32) : Int := sgn (b.getLsbD 31) (b &&& 0x7FFFFFFF#32).toNat

/-- a below b in the order of R139's minimum and maximum: by value, and −0 below +0. -/
def below32 (a b : Word32) : Bool :=
  key32 a < key32 b || (key32 a == key32 b && a.getLsbD 31 && !b.getLsbD 31)

/-- The lesser of two patterns that are not NaN. -/
def minBits (a b : Word32) : Word32 := if below32 b a then b else a
/-- The greater of two patterns that are not NaN. -/
def maxBits (a b : Word32) : Word32 := if below32 a b then b else a

/-- FMIN (0x06): IEEE minimum (R139). -/
def fMin (a b : Word32) : ElRes := withNaN [a, b] (.plain (minBits a b))
/-- FMAX (0x07): IEEE maximum (R139). -/
def fMax (a b : Word32) : ElRes := withNaN [a, b] (.plain (maxBits a b))

/-- IEEE minimumNumber and maximumNumber: a number and a NaN give the number, two NaNs A's NaN, quietened (0x08, 0x09). -/
def numOf (pick : Word32 → Word32 → Word32) (a b : Word32) : ElRes :=
  let st := { StatCounts.zero with invalid := (isSNaN a || isSNaN b).toNat }
  match isNaN a, isNaN b with
  | true, true => ⟨quiet a, { st with nanOut := 1 }⟩
  | true, false => ⟨b, st⟩
  | false, true => ⟨a, st⟩
  | false, false => ⟨pick a b, st⟩

/-- FMINNUM (0x08). -/
def fMinNum (a b : Word32) : ElRes := numOf minBits a b
/-- FMAXNUM (0x09). -/
def fMaxNum (a b : Word32) : ElRes := numOf maxBits a b

/-- The comparisons of FCMPxx and BRS. -/
inductive Cmp where
  | eq
  | ne
  | lt
  | le
  | gt
  | ge
deriving DecidableEq, Repr

/-- A comparison of two integers. -/
def Cmp.int (c : Cmp) (a b : Int) : Bool :=
  match c with
  | .eq => a == b
  | .ne => a != b
  | .lt => a < b
  | .le => a ≤ b
  | .gt => a > b
  | .ge => a ≥ b

/-- An IEEE quiet comparison (R139): unordered is false but for ≠. -/
def Cmp.f32 (c : Cmp) (a b : Word32) : Bool :=
  if isNaN a || isNaN b then c == .ne else c.int (key32 a) (key32 b)

/-- All ones if true, zero if false. -/
def mask32 (b : Bool) : Word32 := if b then 0xFFFFFFFF#32 else 0#32

/-- FCMPEQ to FCMPGE (0x0A to 0x0F); a signalling NaN operand counts as invalid (Table 6.6 count 0). -/
def fCmp (c : Cmp) (a b : Word32) : ElRes :=
  ⟨mask32 (c.f32 a b), { StatCounts.zero with invalid := (isSNaN a || isSNaN b).toNat }⟩

/-- The ranking order of R139: a before b among the greatest: NaN last, −0 and +0 equal, ties by the lower index. -/
def ranksBefore (a b : Word32 × Nat) : Bool :=
  match isNaN a.1, isNaN b.1 with
  | true, true => a.2 < b.2
  | true, false => false
  | false, true => true
  | false, false => key32 b.1 < key32 a.1 || (key32 a.1 == key32 b.1 && a.2 < b.2)

/-! ## Sign operations and roundings to an integer -/

/-- FABS (0x10). -/
def fAbs (a : Word32) : ElRes :=
  if isNaN a then
    ⟨quiet a &&& 0x7FFFFFFF#32, { StatCounts.zero with invalid := (isSNaN a).toNat, nanOut := 1 }⟩
  else .plain (a &&& 0x7FFFFFFF#32)

/-- FNEG (0x11). -/
def fNeg (a : Word32) : ElRes :=
  if isNaN a then
    ⟨quiet a ^^^ 0x80000000#32, { StatCounts.zero with invalid := (isSNaN a).toNat, nanOut := 1 }⟩
  else .plain (a ^^^ 0x80000000#32)

/-- The integer nearest to ±m × 2^e, ties to even, as its magnitude. -/
def rneMag (m : Nat) (e : Int) : Nat := if e ≥ 0 then m <<< e.toNat else shiftRne m (-e).toNat

/-- The magnitude of floor(±m × 2^e): toward −∞. -/
def floorMag (neg : Bool) (m : Nat) (e : Int) : Nat :=
  if e ≥ 0 then m <<< e.toNat
  else
    let d := (-e).toNat
    let t := m >>> d
    if neg && t <<< d != m then t + 1 else t

/-- FFLOOR (Table 6.5): the largest integer not above A. -/
def fFloor (a : Word32) : ElRes :=
  withNaN [a] (
    match dec32 a with
    | .fin n m e => fl32 (.fin n (floorMag n m e) 0)
    | x => fl32 x)

/-- FROUND (Table 6.5): the nearest integer, ties to even. -/
def fRound (a : Word32) : ElRes :=
  withNaN [a] (
    match dec32 a with
    | .fin n m e => fl32 (.fin n (rneMag m e) 0)
    | x => fl32 x)

/-! ## Roots and reciprocals -/

/-- The integer square root by bits: the greatest r + k, k below 2^b, with (r + k)² ≤ n. -/
def isqrtFrom (n : Nat) : Nat → Nat → Nat
  | 0, r => r
  | b + 1, r =>
    let c := r + 2 ^ b
    isqrtFrom n b (if c * c ≤ n then c else r)

/-- The integer square root of a number below 2^512. -/
def isqrt (n : Nat) : Nat := isqrtFrom n 256 0

/-- √(m × 2^e) with a sticky last bit: significand and exponent. -/
def sqrtSticky (m : Nat) (e : Int) : Nat × Int :=
  let odd := (e % 2).toNat
  let n := m <<< (120 + odd)
  let r := isqrt n
  (2 * r + (if r * r = n then 0 else 1), (e - 120 - odd) / 2 - 1)

/-- FSQRT (Table 6.5): correctly rounded; a negative operand other than −0 is invalid. -/
def fSqrt (a : Word32) : ElRes :=
  withNaN [a] (
    match dec32 a with
    | .fin n m e =>
      if m = 0 then .plain a
      else if n then invalidRes
      else let r := sqrtSticky m e; fl32 (.fin false r.1 r.2)
    | .inf false => fl32 (.inf false)
    | _ => invalidRes)

/-- FRCP (Table 6.5): the correctly rounded reciprocal; ±0 gives ±∞ counted as a division by zero. -/
def fRcp (a : Word32) : ElRes := fDiv 0x3F800000#32 a

/-! ## Functions with an error bound (Table 6.5)
Each is computed to more than 100 significant bits as M × 2^e; the hardware's own bits (Config.vfun, free) are the result
wherever they lie within the bound of k ULP of that value, and the correctly rounded value is the result otherwise, so that the
result is free exactly within the bound. -/

/-- 2^128 ln 2, rounded. -/
def ln2Fix : Nat := 235865763225513294137944142764154484399
/-- 2^128 log2 e, rounded. -/
def log2eFix : Nat := 490923683258796565746369346286093237522

/-- Terms of e^t for t = T / 2^128: the sum of t^i / i! from i = n downward by Horner, in units of 2^-128. -/
def expTaylor (t : Nat) : Nat → Nat → Nat
  | 0, acc => acc
  | i + 1, acc => expTaylor t i (2 ^ 128 + acc * t / (2 ^ 128 * (i + 1)))

/-- 2^(n + f / 2^128) for 0 ≤ f < 2^128, as significand and exponent. -/
def pow2Fix (n : Int) (f : Nat) : Nat × Int :=
  (expTaylor (f * ln2Fix / 2 ^ 128) 48 (2 ^ 128), n - 128)

/-- ±m × 2^e in units of 2^-128, rounded toward zero: for magnitudes below 2^20. -/
def toFix (neg : Bool) (m : Nat) (e : Int) : Int :=
  sgn neg (if e + 128 ≥ 0 then m <<< (e + 128).toNat else m >>> (-(e + 128)).toNat)

/-- 2^x for x = X / 2^128. -/
def exp2Fix (x : Int) : Nat × Int := pow2Fix (x / 2 ^ 128) (x % 2 ^ 128).toNat

/-- e^x for x = X / 2^128. -/
def expFix (x : Int) : Nat × Int := exp2Fix (x * log2eFix / 2 ^ 128)

/-- The sum of t^(2i+1) / (2i+1) for i below n, t = T / 2^128 in units of 2^-128; p is t^(2j+1) for the first j to add. -/
def atanhSeries (t2 : Nat) : Nat → Nat → Nat → Nat
  | 0, _, _ => 0
  | n + 1, j, p => p / (2 * j + 1) + atanhSeries t2 n (j + 1) (p * t2 / 2 ^ 128)

/-- ln(m × 2^e) in units of 2^-128. -/
def lnFix (m : Nat) (e : Int) : Int :=
  let l := Nat.log2 m
  let one := 1 <<< l
  let t := ((m - one) <<< 128) / (m + one)
  (2 * atanhSeries (t * t / 2 ^ 128) 48 0 t : Nat) + (e + l) * ln2Fix

/-- A magnitude beyond every FP32 value, and one below every FP32 value. -/
def hugeRef : Nat × Int := (1, 200)
/-- A magnitude below every FP32 value. -/
def tinyRef : Nat × Int := (1, -400)

/-- |x| for x = ±m × 2^e is 2^10 or more. -/
def bigArg (m : Nat) (e : Int) : Bool := m ≠ 0 && e + (Nat.log2 m : Int) ≥ 10

/-- e^(±m × 2^e). -/
def expRef (neg : Bool) (m : Nat) (e : Int) : Nat × Int :=
  if bigArg m e then (if neg then tinyRef else hugeRef) else expFix (toFix neg m e)

/-- 2^(±m × 2^e). -/
def exp2Ref (neg : Bool) (m : Nat) (e : Int) : Nat × Int :=
  if bigArg m e then (if neg then tinyRef else hugeRef) else exp2Fix (toFix neg m e)

/-- The quotient a / b of two magnitudes to 200 binary places past b's size. -/
def divRef (a b : Nat × Int) : Nat × Int :=
  ((a.1 <<< (200 + Nat.log2 b.1)) / b.1, a.2 - b.2 - (200 + Nat.log2 b.1 : Nat))

/-- The exact sum of two magnitudes. -/
def addRef (a b : Nat × Int) : Nat × Int :=
  let e := min a.2 b.2
  (a.1 <<< (a.2 - e).toNat + b.1 <<< (b.2 - e).toNat, e)

/-- The difference a − b of two magnitudes, a ≥ b. -/
def subRef (a b : Nat × Int) : Nat × Int :=
  let e := min a.2 b.2
  (a.1 <<< (a.2 - e).toNat - b.1 <<< (b.2 - e).toNat, e)

/-- 1 / (1 + e^−x) for x = ±m × 2^e. -/
def sigmRef (neg : Bool) (m : Nat) (e : Int) : Nat × Int :=
  if bigArg m e then (if neg then tinyRef else (1, 0))
  else
    let y := expFix (toFix true m e)
    if neg then divRef y (addRef (1, 0) y) else divRef (1, 0) (addRef (1, 0) y)

/-- |tanh x| for |x| = m × 2^e: below 2^-16 by x − x³/3, whose next term is below 2^-64 of the value. -/
def tanhRef (m : Nat) (e : Int) : Nat × Int :=
  if m ≠ 0 && e + (Nat.log2 m : Int) < -16 then
    let x3 := divRef (m * m * m, 3 * e) (3, 0)
    if x3.1 = 0 then (m, e) else subRef (m, e) x3
  else if bigArg m e then (1, 0)
  else
    let y := expFix (2 * toFix true m e)
    divRef (subRef (1, 0) y) (addRef (1, 0) y)

/-- 1 / √(m × 2^e). -/
def rsqrtRef (m : Nat) (e : Int) : Nat × Int := let r := sqrtSticky m e; divRef (1, 0) r

/-- Is the magnitude code v within k ULP of M × 2^e? The ULP is the spacing of FP32 at M × 2^e; the comparison allows 2^-16 of a
ULP for the error of M × 2^e itself. -/
def withinUlp (k : Nat) (v : Nat) (r : Nat × Int) : Bool :=
  let p := Fmt.fp32.magOf v
  let u := max (r.2 + (Nat.log2 r.1 : Int) - 23) (-149)
  let lo := min (min p.2 r.2) (u - 16)
  let a := p.1 <<< (p.2 - lo).toNat
  let b := r.1 <<< (r.2 - lo).toNat
  (a - b) + (b - a) ≤ (k * 2 ^ 16 + 1) <<< (u - 16 - lo).toNat

/-- A function of Table 6.5 on an input without a special row: its value has sign `neg` and magnitude `r` within k ULP. -/
def bounded (f : VFun) (k : Nat) (a : Word32) (neg : Bool) (r : Nat × Int) : ElRes :=
  let c := Config.vfun f a
  let mag := (c &&& 0x7FFFFFFF#32).toNat
  let v := if c.getLsbD 31 == neg && mag ≤ 0x7F800000 && withinUlp k mag r then c else (fl32 (.fin neg r.1 r.2)).val
  ⟨v, { StatCounts.zero with overflow := ((v &&& 0x7FFFFFFF#32) == 0x7F800000#32).toNat }⟩

/-- Is m × 2^e a power of two? Its exponent if so. -/
def pow2Of (m : Nat) (e : Int) : Option Int := if m = 1 <<< Nat.log2 m then some (e + Nat.log2 m) else none

/-- An integer as FP32, rounded once (R143). -/
def ofInt32 (i : Int) : Word32 := (fl32 (.fin (i < 0) i.natAbs 0)).val

/-- FRSQRT: 1 ULP, exact on 4^n. -/
def fRsqrt (a : Word32) : ElRes :=
  withNaN [a] (
    match dec32 a with
    | .fin n m e =>
      if m = 0 then ⟨(fl32 (.inf n)).val, { StatCounts.zero with divZero := 1 }⟩
      else if n then invalidRes
      else match pow2Of m e with
        | some p => if p % 2 = 0 then fl32 (.fin false 1 (-(p / 2))) else bounded .rsqrt 1 a false (rsqrtRef m e)
        | none => bounded .rsqrt 1 a false (rsqrtRef m e)
    | .inf false => .plain 0#32
    | _ => invalidRes)

/-- FEXP: 2 ULP; overflow to +∞ is counted. -/
def fExp (a : Word32) : ElRes :=
  withNaN [a] (
    match dec32 a with
    | .fin n m e => if m = 0 then .plain 0x3F800000#32 else bounded .exp 2 a false (expRef n m e)
    | .inf false => fl32 (.inf false)
    | _ => .plain 0#32)

/-- Is ±m × 2^e an integer? Its value if so, for magnitudes below 2^10. -/
def intOf (neg : Bool) (m : Nat) (e : Int) : Option Int :=
  if bigArg m e then none
  else if e ≥ 0 then some (sgn neg (m <<< e.toNat))
  else if (m >>> (-e).toNat) <<< (-e).toNat = m then some (sgn neg (m >>> (-e).toNat)) else none

/-- FEXP2: 2 ULP, exact on the integers whose power FP32 holds. -/
def fExp2 (a : Word32) : ElRes :=
  withNaN [a] (
    match dec32 a with
    | .fin n m e =>
      match intOf n m e with
      | some i => if -149 ≤ i ∧ i ≤ 127 then fl32 (.fin false 1 i) else bounded .exp2 2 a false (exp2Ref n m e)
      | none => bounded .exp2 2 a false (exp2Ref n m e)
    | .inf false => fl32 (.inf false)
    | _ => .plain 0#32)

/-- FLOG: 2 ULP; ln 1 = +0; ±0 gives −∞ counted as a division by zero. -/
def fLog (a : Word32) : ElRes :=
  withNaN [a] (
    match dec32 a with
    | .fin n m e =>
      if m = 0 then ⟨0xFF800000#32, { StatCounts.zero with divZero := 1 }⟩
      else if n then invalidRes
      else if pow2Of m e = some 0 then .plain 0#32
      else let l := lnFix m e; bounded .log 2 a (l < 0) (l.natAbs, -128)
    | .inf false => fl32 (.inf false)
    | _ => invalidRes)

/-- FLOG2: 2 ULP, exact on powers of two. -/
def fLog2 (a : Word32) : ElRes :=
  withNaN [a] (
    match dec32 a with
    | .fin n m e =>
      if m = 0 then ⟨0xFF800000#32, { StatCounts.zero with divZero := 1 }⟩
      else if n then invalidRes
      else match pow2Of m e with
        | some p => .plain (ofInt32 p)
        | none => let l := lnFix m e; bounded .log2 2 a (l < 0) (l.natAbs * log2eFix, -256)
    | .inf false => fl32 (.inf false)
    | _ => invalidRes)

/-- FTANH: 3 ULP. -/
def fTanh (a : Word32) : ElRes :=
  withNaN [a] (
    match dec32 a with
    | .fin n m e => if m = 0 then .plain a else bounded .tanh 3 a n (tanhRef m e)
    | .inf n => .plain (if n then 0xBF800000#32 else 0x3F800000#32)
    | .nan => invalidRes)

/-- FSIGM: 3 ULP. -/
def fSigm (a : Word32) : ElRes :=
  withNaN [a] (
    match dec32 a with
    | .fin n m e => if m = 0 then .plain 0x3F000000#32 else bounded .sigm 3 a false (sigmRef n m e)
    | .inf n => .plain (if n then 0#32 else 0x3F800000#32)
    | .nan => invalidRes)

/-- FSILU: 3 ULP of A / (1 + e^−A). -/
def fSilu (a : Word32) : ElRes :=
  withNaN [a] (
    match dec32 a with
    | .fin n m e =>
      if m = 0 then .plain a
      else let s := sigmRef n m e; bounded .silu 3 a n (s.1 * m, s.2 + e)
    | .inf n => .plain (if n then 0x80000000#32 else 0x7F800000#32)
    | .nan => invalidRes)

/-! ## Integers -/

/-- The exact integer fits INT32. -/
def fitsI32 (i : Int) : Bool := -(2 ^ 31) ≤ i && i ≤ 2 ^ 31 - 1

/-- A wrapping integer result (Table 6.6 count 3). -/
def wrapRes (i : Int) : ElRes := ⟨BitVec.ofInt 32 i, { StatCounts.zero with wrap := (!fitsI32 i).toNat }⟩

/-- An integer saturated to INT32. -/
def satI32 (i : Int) : Int := max (-(2 ^ 31)) (min i (2 ^ 31 - 1))

/-- A saturating integer result (Table 6.6 count 4). -/
def satRes (i : Int) : ElRes := ⟨BitVec.ofInt 32 (satI32 i), { StatCounts.zero with saturate := (!fitsI32 i).toNat }⟩

/-! ## The sum tree of R156 -/

/-- Adjacent pairs of a list added. -/
def addPairs : List Word32 → List Word32
  | a :: b :: r => (fAdd a b).val :: addPairs r
  | r => r

/-- n levels of the balanced tree. -/
def addTree : Nat → List Word32 → List Word32
  | 0, l => l
  | n + 1, l => addTree n (addPairs l)

/-- The sum of one window of 1,024 elements as a balanced binary tree (R156). -/
def windowSum (w : List Word32) : Word32 := (addTree 10 w).headD 0#32

end Sys2Proof.Machine
end

