-- ==== Sys2Proof/Machine/Operands.lean ====
section
/-! DEFINITION. Operands.lean: the operand formats of spec/05_number_formats.md bit by bit, the element and scale planes of matrix
operands (spec/04 R102, R103) and of windows (spec/06 R147, R148), and the conversions among formats (R133 to R143, R158). -/
namespace Sys2Proof.Machine

/-! ## Format codes (Table 3.2, Table 5.1) -/

/-- Bits of an element of a format code; 0 for a code that Table 3.2 reserves or for None. -/
def elemBits (c : Nat) : Nat :=
  match c with
  | 1 | 2 | 6 => 8
  | 3 | 4 => 6
  | 5 => 4
  | 7 | 8 => 16
  | 9 | 10 => 32
  | _ => 0

/-- An MX format: one whose blocks of 32 elements share a scale (Table 5.1). -/
def isMx (c : Nat) : Bool := 1 ≤ c && c ≤ 6

/-- The layout of a floating-point MX element type (Table 5.2). -/
def mxFmt (c : Nat) : Fmt :=
  match c with
  | 1 => .e4m3
  | 2 => .e5m2
  | 3 => .e3m2
  | 4 => .e2m3
  | _ => .e2m1

/-- The code of the largest finite magnitude of an MX element type (Table 5.2). -/
def mxMaxCode (c : Nat) : Nat :=
  match c with
  | 1 => 0x7E
  | 2 => 0x7B
  | 3 => 0x1F
  | 4 => 0x1F
  | 5 => 0x7
  | _ => 0x7F

/-- emax of Table 5.2, as R126 uses it. -/
def mxEmax (c : Nat) : Int :=
  match c with
  | 1 => 8
  | 2 => 15
  | 3 => 4
  | 4 => 2
  | 5 => 2
  | _ => 0

/-- The value of an MX element code without its scale (R129, R130): NaN and infinity codes exist in E4M3 and E5M2 only. -/
def mxElem (c code : Nat) : Fl :=
  if c = 6 then
    let i : Int := if code < 128 then code else (code : Int) - 256
    .fin (i < 0) i.natAbs (-6)
  else
    let f := mxFmt c
    let neg := code.testBit (f.ew + f.mw)
    let mag := code % 2 ^ (f.ew + f.mw)
    if c = 1 ∧ mag = 0x7F then .nan
    else if c = 2 ∧ mag > 0x7C then .nan
    else if c = 2 ∧ mag = 0x7C then .inf neg
    else let p := f.magOf mag; .fin neg p.1 p.2

/-- The value of an element of an MX block with scale byte B (R132, R133). -/
def mxVal (c scale code : Nat) : Fl :=
  if scale = 0xFF then .nan
  else match mxElem c code with
    | .fin n m e => .fin n m (e + (scale : Int) - 127)
    | x => x

/-! ## Planes -/

/-- n elements of b bits from the bytes of a row or plane: element x lies in bits [b x + b − 1 : b x] (R102, R131). -/
def unpackElems (b n : Nat) (bytes : List Byte) : List Nat :=
  let v := leNat bytes
  (List.range n).map fun x => (v >>> (b * x)) % 2 ^ b

/-- Elements of b bits packed least significant first. -/
def packNat (b : Nat) : List Nat → Nat
  | [] => 0
  | c :: r => c % 2 ^ b + 2 ^ b * packNat b r

/-- Elements of b bits packed into bytes (R102, R131). -/
def packElems (b : Nat) (codes : List Nat) : List Byte := leBytes (b * codes.length / 8) (packNat b codes)

/-- Bytes of the element plane of rows × L elements (R102). -/
def elemPlaneBytes (c rows l : Nat) : Nat := rows * l * elemBits c / 8

/-- Bytes of an operand of rows × L elements with its scale plane (R102). -/
def planeBytes (c rows l : Nat) : Nat := elemPlaneBytes c rows l + (if isMx c then rows * (l / 32) else 0)

/-- Bytes of a weight tile of K rows of N elements: its scale plane holds K / 32 rows of N bytes (R103). -/
def tileBytes (c k n : Nat) : Nat := elemPlaneBytes c k n + (if isMx c then (k / 32) * n else 0)

/-- Window size by format (Table 6.1). -/
def windowBytes (c : Nat) : Nat := planeBytes c 1 1024

/-! ## Into an MX format (R126, R127, R141) -/

/-- A converted block: its scale byte, its element codes and how many elements saturated. -/
structure MxBlock where
  scale : Nat
  codes : List Nat
  sats  : Nat
deriving DecidableEq, Repr

/-- One element divided by 2^X and rounded into the element type: code and saturation (R127, Table 5.5). -/
def mxCode (c : Nat) (x : Int) (z : Word32) : Nat × Bool :=
  match dec32 z with
  | .fin n m e =>
    if c = 6 then
      let i := rneMag m (e - x + 6)
      let s := min i 127
      (if n && s ≠ 0 then 256 - s else s, i > 127)
    else
      let f := mxFmt c
      let t := f.roundMag m (e - x)
      (f.signBits n + min t (mxMaxCode c), t > mxMaxCode c)
  | _ => (0, false)

/-- floor(log2) of the magnitude of an FP32 value that is finite and nonzero. -/
def log2Of (z : Word32) : Int :=
  match dec32 z with
  | .fin _ m e => e + (Nat.log2 m : Int)
  | _ => 0

/-- The magnitude bits of an FP32 pattern: they order magnitudes. -/
def magBits (z : Word32) : Nat := (z &&& 0x7FFFFFFF#32).toNat

/-- The scale exponent X of a block of finite values (R126). -/
def mxScaleExp (c : Nat) (zs : List Word32) : Int :=
  let amax := zs.foldl (fun a z => if magBits a < magBits z then z else a) 0#32
  if magBits amax = 0 then -127 else max (-127) (min (log2Of amax - mxEmax c) 127)

/-- A block of 32 FP32 values converted (R126, R127, R141, R142): a NaN or an infinity gives the NaN scale and zero codes. -/
def mxBlock (c : Nat) (zs : List Word32) : MxBlock :=
  if zs.any (fun z => magBits z ≥ 0x7F800000) then ⟨0xFF, zs.map (fun _ => 0), 0⟩
  else
    let x := mxScaleExp c zs
    let rs := zs.map (mxCode c x)
    ⟨(x + 127).toNat, rs.map (·.1), (rs.filter (·.2)).length⟩

/-! ## Conversions among IEEE formats and INT32 (R137, R143, Table 5.6) -/

/-- The FP32 NaN of a 16-bit NaN: sign kept, zero bits appended, quiet bit set. -/
def widenNaN (f : Fmt) (b : Nat) : Word32 :=
  let fr := b % 2 ^ f.mw
  let s := if b.testBit (f.ew + f.mw) then 0x80000000 else 0
  quiet (BitVec.ofNat 32 (s + 0x7F800000 + fr <<< (23 - f.mw)))

/-- A 16-bit pattern into FP32. -/
def widen (f : Fmt) (b : Nat) : ElRes :=
  match f.toFl b with
  | .nan =>
    ⟨widenNaN f b, { StatCounts.zero with invalid := (!b.testBit (f.mw - 1)).toNat, nanOut := 1 }⟩
  | x => fl32 x

/-- An element of any format of Table 5.1 into FP32 (R134, R143, R158). -/
def toF32 (c scale code : Nat) : ElRes :=
  match c with
  | 7 => widen .bf16 code
  | 8 => widen .fp16 code
  | 9 => withNaN [BitVec.ofNat 32 code] (.plain (BitVec.ofNat 32 code))
  | 10 => .plain (ofInt32 (BitVec.ofNat 32 code).toInt)
  | _ => fl32 (mxVal c scale code)

/-- FP32 into BF16 or FP16: code and counts. -/
def narrow (f : Fmt) (z : Word32) : Nat × StatCounts :=
  match dec32 z with
  | .nan =>
    let s := f.signBits (z.getLsbD 31)
    let fr := (z &&& 0x007FFFFF#32).toNat >>> (23 - f.mw)
    (s + f.infCode + (fr ||| 2 ^ (f.mw - 1)), { StatCounts.zero with invalid := (isSNaN z).toNat })
  | .inf n => (f.signBits n + f.infCode, .zero)
  | .fin n m e => let r := f.ofFin n m e; (r.1, { StatCounts.zero with overflow := r.2.toNat })

/-- FP32 into INT32 (Table 5.6). -/
def toI32 (z : Word32) : ElRes :=
  match dec32 z with
  | .nan => ⟨0#32, { StatCounts.zero with invalid := 1 }⟩
  | .inf n => ⟨if n then 0x80000000#32 else 0x7FFFFFFF#32, { StatCounts.zero with saturate := 1 }⟩
  | .fin n m e => satRes (sgn n (rneMag m e))

/-- An FP32 value into a format that is not MX: code and counts. -/
def fromF32 (c : Nat) (z : Word32) : Nat × StatCounts :=
  match c with
  | 7 => narrow .bf16 z
  | 8 => narrow .fp16 z
  | 10 => let r := toI32 z; (r.val.toNat, r.st)
  | _ => let r := withNaN [z] (.plain z); (r.val.toNat, { r.st with nanOut := if isNaN z then 1 else 0 })

/-! ## Windows -/

/-- The elements of a window's bytes, each with the scale byte of its block (0 for a format without scales). -/
def windowElems (c : Nat) (bytes : List Byte) : List (Nat × Nat) :=
  let codes := unpackElems (elemBits c) 1024 bytes
  let scales := if isMx c then (bytes.drop (elemPlaneBytes c 1 1024)).map BitVec.toNat else []
  codes.zipIdx.map fun p => ((scales[p.2 / 32]?).getD 0, p.1)

/-- The 32-bit elements of a window of 4,096 bytes. -/
def window32 (bytes : List Byte) : List Word32 :=
  (chunksOf 4 1024 bytes).map fun w => BitVec.ofNat 32 (leNat w)

/-- The bytes of a window of 32-bit elements. -/
def bytes32 (ws : List Word32) : List Byte := ws.flatMap fun w => leBytes 4 w.toNat

end Sys2Proof.Machine
end

