-- ==== Sys2Proof/Machine/Atomics.lean ====
section
/-! DEFINITION. Atomics.lean: the operations of DATOM at the home (spec/11 R280 to R283, Table 11.2) as functions on the old value. -/
namespace Sys2Proof.Machine

/-- The DATOM operations (Table 11.2). -/
inductive AtomOp where
  | add32 | add64 | smin32 | smin64 | smax32 | smax64 | umin32 | umin64 | umax32 | umax64 | swap32 | swap64 | cas32 | cas64
  | fadd32 | bfadd16
deriving DecidableEq, Repr

/-- SUBOP of an operation (Table 11.2). -/
def AtomOp.subop (a : AtomOp) : Nat :=
  match a with
  | .add32 => 0x01 | .add64 => 0x02 | .smin32 => 0x03 | .smin64 => 0x04 | .smax32 => 0x05 | .smax64 => 0x06
  | .umin32 => 0x07 | .umin64 => 0x08 | .umax32 => 0x09 | .umax64 => 0x0A | .swap32 => 0x0B | .swap64 => 0x0C
  | .cas32 => 0x0D | .cas64 => 0x0E | .fadd32 => 0x0F | .bfadd16 => 0x10

/-- The operation of a SUBOP. -/
def atomOf (subop : Nat) : Option AtomOp :=
  match subop with
  | 0x01 => some .add32 | 0x02 => some .add64 | 0x03 => some .smin32 | 0x04 => some .smin64
  | 0x05 => some .smax32 | 0x06 => some .smax64 | 0x07 => some .umin32 | 0x08 => some .umin64
  | 0x09 => some .umax32 | 0x0A => some .umax64 | 0x0B => some .swap32 | 0x0C => some .swap64
  | 0x0D => some .cas32 | 0x0E => some .cas64 | 0x0F => some .fadd32 | 0x10 => some .bfadd16
  | _ => none

/-- Operand size in bytes (Table 11.2). -/
def AtomOp.size (a : AtomOp) : Nat :=
  match a with
  | .add64 | .smin64 | .smax64 | .umin64 | .umax64 | .swap64 | .cas64 => 8
  | .bfadd16 => 2
  | _ => 4

/-- The sum of two BF16 values, rounded once (R282): the first NaN in the order old, VALUE, quietened. -/
def bfAdd (a b : BitVec 16) : BitVec 16 :=
  let f := Fmt.bf16
  match f.toFl a.toNat, f.toFl b.toNat with
  | .nan, _ => a ||| 0x0040#16
  | _, .nan => b ||| 0x0040#16
  | x, y =>
    match x.add y with
    | .nan => 0x7FC0#16
    | .inf n => BitVec.ofNat 16 (f.signBits n + f.infCode)
    | .fin n m e => BitVec.ofNat 16 (f.ofFin n m e).1

/-- Memory becomes, from the old value, VALUE and the 64-bit compare value that CAS64 reads at issue (Table 11.2). -/
def AtomOp.apply (a : AtomOp) (old value compare : BitVec 64) : BitVec 64 :=
  let o32 : BitVec 32 := old.truncate 32
  let v32 : BitVec 32 := value.truncate 32
  let ext (x : BitVec 32) : BitVec 64 := x.zeroExtend 64
  match a with
  | .add32 => ext (o32 + v32)
  | .add64 => old + value
  | .smin32 => ext (if BitVec.slt v32 o32 then v32 else o32)
  | .smin64 => if BitVec.slt value old then value else old
  | .smax32 => ext (if BitVec.slt o32 v32 then v32 else o32)
  | .smax64 => if BitVec.slt old value then value else old
  | .umin32 => ext (if BitVec.ult v32 o32 then v32 else o32)
  | .umin64 => if BitVec.ult value old then value else old
  | .umax32 => ext (if BitVec.ult o32 v32 then v32 else o32)
  | .umax64 => if BitVec.ult old value then value else old
  | .swap32 => ext v32
  | .swap64 => value
  | .cas32 => if o32 = (value >>> 32).truncate 32 then ext v32 else ext o32
  | .cas64 => if old = compare then value else old
  | .fadd32 => ext (fAdd o32 v32).val
  | .bfadd16 => (bfAdd (old.truncate 16) (value.truncate 16)).zeroExtend 64

end Sys2Proof.Machine
end

