-- ==== Sys2Proof/Machine/MatrixOps.lean ====
section
/-! DEFINITION. MatrixOps.lean: tiles, gang shapes, partial sums and the output conversion of spec/04, as functions on plain data;
Matrix.lean issues and starts the commands. -/
namespace Sys2Proof.Machine

/-- A weight tile as the cells of one array hold it (R97, R105): the format, K, N and GANG recorded with it, the element codes of
its physical rows, and the scale bytes of each 32 of them (R103). Cells outside the extent are +0 and not listed. -/
structure Tile where
  fmt    : Nat
  k      : Nat
  n      : Nat
  gang   : Nat
  rows   : List (List Nat)
  scales : List (List Nat)
deriving DecidableEq, Repr

/-- Reduction depth of a gang shape (Table 4.3). -/
def gangDepth (gang : Nat) : Nat :=
  match gang with
  | 1 => 256
  | 3 => 512
  | _ => 128

/-- Output width of a gang shape (Table 4.3). -/
def gangWidth (gang : Nat) : Nat :=
  match gang with
  | 1 => 256
  | 2 => 512
  | _ => 128

/-- The array and column that accumulate output column j (Table 4.3); `own` is the array a single command names. -/
def accPlace (gang own j : Nat) : Nat × Nat :=
  match gang with
  | 1 => (2 + j / 128, j % 128)
  | 2 => (j / 128, j % 128)
  | 3 => (3, j)
  | _ => (own, j)

/-- A tile from the bytes of an MLOAD operand (R103). -/
def tileOfBytes (fmt k n gang : Nat) (bytes : List Byte) : Tile :=
  { fmt := fmt, k := k, n := n, gang := gang,
    rows := chunksOf n k (unpackElems (elemBits fmt) (k * n) bytes),
    scales := if isMx fmt then chunksOf n (k / 32) ((bytes.drop (elemPlaneBytes fmt k n)).map BitVec.toNat) else [] }

/-- The part of a ganged tile that array `a` holds (R109). -/
def Tile.part (t : Tile) (a : Nat) : Tile :=
  match t.gang with
  | 1 =>
    { t with rows := ((t.rows.drop (128 * (a / 2))).take 128).map fun r => (r.drop (128 * (a % 2))).take 128,
             scales := ((t.scales.drop (4 * (a / 2))).take 4).map fun r => (r.drop (128 * (a % 2))).take 128 }
  | 2 =>
    { t with rows := t.rows.map fun r => (r.drop (128 * a)).take 128,
             scales := t.scales.map fun r => (r.drop (128 * a)).take 128 }
  | 3 => { t with rows := (t.rows.drop (128 * a)).take 128, scales := (t.scales.drop (4 * a)).take 4 }
  | _ => t

/-- Rows of two arrays side by side. -/
def beside (a b : List (List Nat)) : List (List Nat) := List.zipWith (fun x y => x ++ y) a b

/-- The full rows of a gang's four arrays (R109). -/
def gangJoin (gang : Nat) (a0 a1 a2 a3 : List (List Nat)) : List (List Nat) :=
  match gang with
  | 1 => beside a0 a1 ++ beside a2 a3
  | 2 => beside (beside a0 a1) (beside a2 a3)
  | 3 => a0 ++ a1 ++ a2 ++ a3
  | _ => a0

/-! ## Partial sums (R112, R113) -/

/-- The exact sum of the products of one block of 32: NaN, an infinity, or a finite value whose zero is −0 only if every product
is −0 (R113). -/
def blockSum (ps : List Fl) : Fl :=
  if ps.any (fun p => p = .nan) || (ps.any (fun p => p = .inf false) && ps.any (fun p => p = .inf true)) then .nan
  else if ps.any (fun p => p = .inf false) then .inf false
  else if ps.any (fun p => p = .inf true) then .inf true
  else
    match ps with
    | [] => .fin false 0 0
    | p :: r => r.foldl Fl.add p

/-- A value times 2^s. -/
def Fl.scale (x : Fl) (s : Int) : Fl :=
  match x with
  | .fin n m e => .fin n m (e + s)
  | y => y

/-- A result of an array: every NaN is the default NaN (R137). -/
def arr32 (x : Fl) : Word32 := (fl32 x).val

/-- One block's value: the NaN scale contributes NaN, otherwise the exact sum times 2^(sa + sw) (R112, R113). -/
def blockValue (fmt : Nat) (as ws : List Nat) (sa sw : Nat) : Fl :=
  if sa = 0xFF ∨ sw = 0xFF then .nan
  else (blockSum (List.zipWith (fun a w => (mxElem fmt a).mul (mxElem fmt w)) as ws)).scale ((sa : Int) - 127 + ((sw : Int) - 127))

/-- Blocks of a column in ascending k: the running FP32 sum starts with the first block's value (R112). -/
def mxPartial (fmt : Nat) : Option Word32 → List (List Nat) → List (List Nat) → List Nat → List Nat → Word32
  | c, a :: as, w :: ws, sa :: sas, sw :: sws =>
    let v := blockValue fmt a w sa sw
    mxPartial fmt (some (match c with
      | none => arr32 v
      | some r => arr32 ((dec32 r).add v))) as ws sas sws
  | c, _, _, _, _ => c.getD 0#32

/-- The fused multiply-add chain of BF16 and FP16: it starts as −0, one rounding per cell (R112). -/
def ieeePartial (f : Fmt) : Word32 → List Nat → List Nat → Word32
  | c, a :: as, w :: ws => ieeePartial f (arr32 (((f.toFl a).mul (f.toFl w)).add (dec32 c))) as ws
  | c, _, _ => c

/-- The layout of a matrix operand format that is not MX. -/
def ieeeFmt (fmt : Nat) : Fmt := if fmt = 7 then .bf16 else .fp16

/-- The partial sum of one activation row against one column (R112). -/
def partialSum (fmt : Nat) (acts : List Nat) (ascales : List Nat) (col : List Nat) (cscales : List Nat) : Word32 :=
  if isMx fmt then
    mxPartial fmt none (chunksOf 32 acts.length acts) (chunksOf 32 col.length col) ascales cscales
  else ieeePartial (ieeeFmt fmt) 0x80000000#32 acts col

/-- Column j of a list of rows. -/
def columnOf (rows : List (List Nat)) (j : Nat) : List Nat := rows.map fun r => (r[j]?).getD 0

/-- One accumulator entry after a partial sum is taken in (R111): ACC 0b01 clears first. -/
def accumulate (acc : Nat) (old new : Word32) : Word32 := if acc = 1 then new else arr32 ((dec32 old).add (dec32 new))

/-! ## Rows of activations -/

/-- The activation rows of an MMUL operand: element codes and scale bytes of each row (R102, R119). -/
def actRows (fmt m k : Nat) (bytes : List Byte) : List (List Nat × List Nat) :=
  let codes := chunksOf k m (unpackElems (elemBits fmt) (m * k) bytes)
  let scales := if isMx fmt then chunksOf (k / 32) m ((bytes.drop (elemPlaneBytes fmt m k)).map BitVec.toNat)
    else List.replicate m []
  List.zip codes scales

/-! ## Output conversion (R123 to R127) -/

/-- The conversion parameter block (Table 4.7). -/
structure ConvBlock where
  scalePtr  : Nat
  biasPtr   : Nat
  clipLo    : Word32
  clipHi    : Word32
  uniScale  : Word32
  clipEn    : Bool
  biasEn    : Bool
  scaleMode : Nat
  rsvd      : Bool
deriving DecidableEq, Repr

/-- The parameter block in its 64 bytes. -/
def convBlockOf (bytes : List Byte) : ConvBlock :=
  let v := leNat bytes
  { scalePtr := bitsOf v 511 480, biasPtr := bitsOf v 479 448, clipLo := BitVec.ofNat 32 (bitsOf v 447 416),
    clipHi := BitVec.ofNat 32 (bitsOf v 415 384), uniScale := BitVec.ofNat 32 (bitsOf v 383 352),
    clipEn := bitsOf v 3 3 = 1, biasEn := bitsOf v 2 2 = 1, scaleMode := bitsOf v 1 0,
    rsvd := bitsOf v 351 4 ≠ 0 || bitsOf v 511 506 ≠ 0 || bitsOf v 479 474 ≠ 0 }

/-- Steps 1 to 3 for one value (Table 4.6). DESIGN CHOICE (notes/assumptions/69): with a NaN among x, s_j and b_j the first of them in this order is kept,
quietened; the clip then sees that result first and the bound second. R137 gives the order for the vector engine alone. -/
def convValue (p : ConvBlock) (s b x : Word32) : Word32 :=
  let y := (fFma x s b).val
  if p.clipEn then (fMin (fMax y p.clipLo).val p.clipHi).val else y

/-- One output row converted: element bytes, scale bytes and saturations (steps 4 and 5). -/
def convRow (dst : Nat) (zs : List Word32) : List Nat × List Byte × Nat :=
  if isMx dst then
    let bs := (chunksOf 32 zs.length zs).map (mxBlock dst)
    ((bs.map (·.codes)).flatten, bs.map (fun b => BitVec.ofNat 8 b.scale), (bs.map (·.sats)).sum)
  else (zs.map (fun z => if dst = 9 then z.toNat else (narrow (ieeeFmt dst) z).1), [], 0)

/-! ## Cycle counts (R99, R105, R116, R121) -/

/-- e(i) of R99. -/
def entryCycle (fmt i : Nat) : Nat := if fmt = 5 then i / 2 else if fmt = 7 ∨ fmt = 8 then 2 * i else i

/-- Cycles of an MMUL that meets no stall, counting the entry cycle (R121). -/
def mmulCycles (fmt gang m : Nat) : Nat :=
  entryCycle fmt (m - 1) + gangDepth gang + 128 + (if fmt = 7 ∨ fmt = 8 then 1 else 0)

/-- Cycles for which an MMUL of M rows holds the entry port: ⌈M × q⌉ (R121). -/
def portCycles (fmt m : Nat) : Nat := if fmt = 5 then (m + 1) / 2 else if fmt = 7 ∨ fmt = 8 then 2 * m else m

/-- Cycles of an MLOAD (R105) and of an MDRAIN of M entries (R116) that meet no stall. -/
def mloadCycles : Nat := 128
/-- Cycles of an MDRAIN of M entries (R116). -/
def mdrainCycles (m : Nat) : Nat := m + 16

end Sys2Proof.Machine
end

