-- ==== Sys2Proof/Machine/Flags.lean ====
section
/-! DEFINITION. Flags.lean: the summaries of spec/06 (R155, R156, Table 6.3), the branch conditions of spec/03 (R92, R93, Table
3.13) and the ranking order of R139 as a selection: everything a command leaves for a later branch or count. -/
namespace Sys2Proof.Machine

/-- The kind in which a summary reads its elements (R155, Table 6.4). -/
inductive SumKind where
  | f
  | i
  | u
  | none
deriving DecidableEq, Repr

/-- IEEE maximum or minimum of a list, the first NaN in element order, quietened, if any (Table 6.3). -/
def fExtreme (pick : Word32 → Word32 → Word32) (es : List Word32) : Word32 :=
  match es.find? isNaN, es with
  | some n, _ => quiet n
  | none, a :: r => r.foldl pick a
  | none, [] => 0#32

/-- Maximum or minimum of a list under an integer reading. -/
def iExtreme (less : Word32 → Word32 → Bool) (es : List Word32) : Word32 :=
  match es with
  | a :: r => r.foldl (fun m x => if less m x then x else m) a
  | [] => 0#32

/-- The FP32 sum of a run of windows: each window as a tree, then the totals in ascending order (R156). -/
def runSum (ws : List (List Word32)) : Word32 :=
  match ws with
  | [] => 0#32
  | w :: r => r.foldl (fun t v => (fAdd t (windowSum v)).val) (windowSum w)

/-- Is an element nonzero for the count of Table 6.3? −0 is zero in kind F; a NaN counts. -/
def countsAs (k : SumKind) (e : Word32) : Bool :=
  if k = .f then isNaN e || magBits e != 0 else e != 0#32

/-- The summary of a run of windows (Table 6.3). -/
def summaryOf (k : SumKind) (sumkind : Nat) (ws : List (List Word32)) : Word32 :=
  let es := ws.flatten
  let count := (es.filter (countsAs k)).length
  match sumkind, k with
  | 1, .f => runSum ws
  | 1, _ => es.foldl (fun t e => t + e) 0#32
  | 2, .f => fExtreme maxBits es
  | 2, .u => iExtreme (fun m x => BitVec.ult m x) es
  | 2, _ => iExtreme (fun m x => BitVec.slt m x) es
  | 3, .f => fExtreme minBits es
  | 3, .u => iExtreme (fun m x => BitVec.ult x m) es
  | 3, _ => iExtreme (fun m x => BitVec.slt x m) es
  | 4, _ => BitVec.ofNat 32 count
  | 5, _ => if count = 0 then 0#32 else 1#32
  | 6, _ => if count = es.length then 1#32 else 0#32
  | _, _ => 0#32

/-- The comparison that a COND code makes, and whether it compares with zero in place of IMM (Table 3.13). -/
def condOf (cond : Nat) : Option (Cmp × Bool) :=
  match cond with
  | 0 => some (.eq, false)
  | 1 => some (.ne, false)
  | 2 => some (.lt, false)
  | 3 => some (.le, false)
  | 4 => some (.gt, false)
  | 5 => some (.ge, false)
  | 6 => some (.ne, true)
  | 7 => some (.eq, true)
  | _ => none

/-- Does a BRS condition hold for a slot value (R92, R93)? A reserved COND never holds. -/
def condHolds (kind cond : Nat) (v imm : Word32) : Bool :=
  match condOf cond with
  | none => false
  | some (c, zero) =>
    let b := if zero then 0#32 else imm
    match kind with
    | 0 => c.f32 v b
    | 1 => c.int v.toInt b.toInt
    | _ => c.int v.toNat b.toNat

/-- An element with its index inserted into a list in ranking order. -/
def insertRank (x : Word32 × Nat) : List (Word32 × Nat) → List (Word32 × Nat)
  | [] => [x]
  | y :: r => if ranksBefore x y then x :: y :: r else y :: insertRank x r

/-- The k greatest elements of a list in the ranking order of R139, greatest first, with their indices. -/
def topRanked (k : Nat) (es : List Word32) : List (Word32 × Nat) :=
  es.zipIdx.foldl (fun best x => (insertRank x best).take k) []

end Sys2Proof.Machine
end

