-- ==== Sys2Proof/Machine/VectorOps.lean ====
section
/-! DEFINITION. VectorOps.lean: the vector operations of spec/06 as functions on windows (R150, R157 to R160, Tables 6.4 to 6.6),
over a scratchpad and a pass register; Vector.lean issues and starts them. -/
namespace Sys2Proof.Machine

/-- The vector operation codes (Table 6.4). -/
inductive VOp where
  | fadd | fsub | fmul | ffma | fdiv | fmin | fmax | fminnum | fmaxnum
  | fcmp (c : Cmp)
  | fabs | fneg | fsqrt | frsqrt | frcp | fexp | fexp2 | flog | flog2 | ftanh | fsigm | fsilu | ffloor | fround
  | iadd | iadds | isub | isubs | imul | imuls | iand | ior | ixor | inot | ishl | ishr | isra | imin | imax | umin | umax
  | icmpeq | icmplt | ucmplt
  | copy | sel | iota | gather | fill | fscan | summ | summi | mld | cvt | topk | rand | randu | statrd
deriving DecidableEq, Repr

/-- VOPC of an operation (Table 6.4). -/
def VOp.code (op : VOp) : Nat :=
  match op with
  | .fadd => 0x01 | .fsub => 0x02 | .fmul => 0x03 | .ffma => 0x04 | .fdiv => 0x05 | .fmin => 0x06 | .fmax => 0x07
  | .fminnum => 0x08 | .fmaxnum => 0x09
  | .fcmp .eq => 0x0A | .fcmp .ne => 0x0B | .fcmp .lt => 0x0C | .fcmp .le => 0x0D | .fcmp .gt => 0x0E | .fcmp .ge => 0x0F
  | .fabs => 0x10 | .fneg => 0x11 | .fsqrt => 0x12 | .frsqrt => 0x13 | .frcp => 0x14 | .fexp => 0x15 | .fexp2 => 0x16
  | .flog => 0x17 | .flog2 => 0x18 | .ftanh => 0x19 | .fsigm => 0x1A | .fsilu => 0x1B | .ffloor => 0x1C | .fround => 0x1D
  | .iadd => 0x20 | .iadds => 0x21 | .isub => 0x22 | .isubs => 0x23 | .imul => 0x24 | .imuls => 0x25 | .iand => 0x26
  | .ior => 0x27 | .ixor => 0x28 | .inot => 0x29 | .ishl => 0x2A | .ishr => 0x2B | .isra => 0x2C | .imin => 0x2D
  | .imax => 0x2E | .umin => 0x2F | .umax => 0x30 | .icmpeq => 0x31 | .icmplt => 0x32 | .ucmplt => 0x33
  | .copy => 0x40 | .sel => 0x41 | .iota => 0x42 | .gather => 0x43 | .fill => 0x44 | .fscan => 0x45 | .summ => 0x46
  | .summi => 0x47 | .mld => 0x48 | .cvt => 0x50 | .topk => 0x60 | .rand => 0x61 | .randu => 0x62 | .statrd => 0x70

/-- Which of A, B and C an operation reads as element operands (Table 6.4); GATHER's table is not an element operand. -/
def VOp.uses (op : VOp) : Bool × Bool × Bool :=
  match op with
  | .ffma | .sel => (true, true, true)
  | .fabs | .fneg | .fsqrt | .frsqrt | .frcp | .fexp | .fexp2 | .flog | .flog2 | .ftanh | .fsigm | .fsilu | .ffloor
  | .fround | .inot | .copy | .fscan | .summ | .summi | .cvt | .topk | .gather => (true, false, false)
  | .iota | .fill | .mld | .rand | .randu | .statrd => (false, false, false)
  | _ => (true, true, false)

/-- Does an operation write a DST run (Table 6.4)? -/
def VOp.hasDst (op : VOp) : Bool :=
  match op with
  | .summ | .summi | .statrd => false
  | _ => true

/-- The kind of an operation's summary (Table 6.4); CVT's depends on DSTFMT. -/
def VOp.sumKind (op : VOp) (dstfmt : Nat) : SumKind :=
  match op with
  | .fcmp _ | .iadd | .iadds | .isub | .isubs | .imul | .imuls | .isra | .imin | .imax | .icmpeq | .icmplt | .ucmplt
  | .iota | .summi => .i
  | .iand | .ior | .ixor | .inot | .ishl | .ishr | .umin | .umax | .rand => .u
  | .topk | .statrd => .none
  | .cvt => if dstfmt = 10 then .i else .f
  | _ => .f

/-- Cycles per window (Table 6.7). -/
def VOp.cyclesPerWindow (op : VOp) : Nat :=
  match op with
  | .fsqrt | .frsqrt | .frcp | .fexp | .fexp2 | .flog | .flog2 | .ftanh | .fsigm | .fsilu | .fdiv | .fscan | .topk => 8
  | .gather => 16
  | .statrd => 0
  | _ => 4

/-- The cycles of a VOP that meets no stall (R161): 16 + COUNT × c_w, and TOPK's ceil(IMM / 64) once. -/
def VOp.cycles (op : VOp) (count imm : Nat) : Nat :=
  16 + count * op.cyclesPerWindow + (if op = .topk then (imm + 63) / 64 else 0)

/-! ## Element functions -/

/-- One result element of an element-wise operation from A, B and C (Tables 6.4, 6.5). -/
def vElem (op : VOp) (a b c : Word32) : ElRes :=
  match op with
  | .fadd => fAdd a b
  | .fsub => fSub a b
  | .fmul => fMul a b
  | .ffma => fFma a b c
  | .fdiv => fDiv a b
  | .fmin => fMin a b
  | .fmax => fMax a b
  | .fminnum => fMinNum a b
  | .fmaxnum => fMaxNum a b
  | .fcmp k => fCmp k a b
  | .fabs => fAbs a
  | .fneg => fNeg a
  | .fsqrt => fSqrt a
  | .frsqrt => fRsqrt a
  | .frcp => fRcp a
  | .fexp => fExp a
  | .fexp2 => fExp2 a
  | .flog => fLog a
  | .flog2 => fLog2 a
  | .ftanh => fTanh a
  | .fsigm => fSigm a
  | .fsilu => fSilu a
  | .ffloor => fFloor a
  | .fround => fRound a
  | .iadd => wrapRes (a.toInt + b.toInt)
  | .iadds => satRes (a.toInt + b.toInt)
  | .isub => wrapRes (a.toInt - b.toInt)
  | .isubs => satRes (a.toInt - b.toInt)
  | .imul => wrapRes (a.toInt * b.toInt)
  | .imuls => satRes (a.toInt * b.toInt)
  | .iand => .plain (a &&& b)
  | .ior => .plain (a ||| b)
  | .ixor => .plain (a ^^^ b)
  | .inot => .plain (~~~a)
  | .ishl => .plain (a <<< (b.toNat % 32))
  | .ishr => .plain (a >>> (b.toNat % 32))
  | .isra => .plain (a.sshiftRight (b.toNat % 32))
  | .imin => .plain (if BitVec.slt b a then b else a)
  | .imax => .plain (if BitVec.slt a b then b else a)
  | .umin => .plain (if BitVec.ult b a then b else a)
  | .umax => .plain (if BitVec.ult a b then b else a)
  | .icmpeq => .plain (mask32 (a == b))
  | .icmplt => .plain (mask32 (BitVec.slt a b))
  | .ucmplt => .plain (mask32 (BitVec.ult a b))
  | .copy => .plain a
  | .sel => .plain (if a ≠ 0#32 then b else c)
  | _ => .plain a

/-- IOTA's element e: IMM + e, with IMM signed, wrapping (Table 6.4, Table 6.6 count 3). -/
def iotaElem (imm : Word32) (e : Nat) : ElRes := wrapRes (imm.toInt + (e : Int))

/-- GATHER's index: A below 0 clamps to 0 and above IMM − 1 to IMM − 1, each counted. -/
def gatherIndex (imm : Nat) (a : Word32) : Nat × Bool :=
  if a.toInt < 0 then (0, true) else if imm ≤ a.toNat then (imm - 1, true) else (a.toNat, false)

/-- A GATHER element from a table. -/
def gatherElem (imm : Nat) (table : List Word32) (a : Word32) : ElRes :=
  let i := gatherIndex imm a
  ⟨(table[i.1]?).getD 0#32, { StatCounts.zero with clamp := i.2.toNat }⟩

/-! ## Philox-4×32-10 (R159) -/

/-- One round's counter: h0, l0, h1, l1 and the key. -/
def philoxRound (c : Word32 × Word32 × Word32 × Word32) (k0 k1 : Word32) : Word32 × Word32 × Word32 × Word32 :=
  let p0 := 0xD2511F53 * c.1.toNat
  let p1 := 0xCD9E8D57 * c.2.2.1.toNat
  let hi (p : Nat) : Word32 := BitVec.ofNat 32 (p / 2 ^ 32)
  let lo (p : Nat) : Word32 := BitVec.ofNat 32 p
  (hi p1 ^^^ c.2.1 ^^^ k0, lo p1, hi p0 ^^^ c.2.2.2 ^^^ k1, lo p0)

/-- n rounds, the key advanced after each. -/
def philoxRounds : Nat → Word32 × Word32 × Word32 × Word32 → Word32 → Word32 → Word32 × Word32 × Word32 × Word32
  | 0, c, _, _ => c
  | n + 1, c, k0, k1 => philoxRounds n (philoxRound c k0 k1) (k0 + 0x9E3779B9#32) (k1 + 0xBB67AE85#32)

/-- Element e of a RAND run: key from SEED, counter (floor(e / 4), IMM, OUT_INDEX, 0), output word e mod 4. -/
def philoxElem (seed : BitVec 64) (imm outIndex : Word32) (e : Nat) : Word32 :=
  let k0 := seed.truncate 32
  let k1 := (seed >>> 32).truncate 32
  let r := philoxRounds 10 (BitVec.ofNat 32 (e / 4), imm, outIndex, 0#32) k0 k1
  match e % 4 with
  | 0 => r.1
  | 1 => r.2.1
  | 2 => r.2.2.1
  | _ => r.2.2.2

/-- RANDU's element: (u >> 8) × 2^-24, exact. -/
def randuElem (u : Word32) : Word32 := (fl32 (.fin false (u >>> 8).toNat (-24))).val

/-! ## Windows and runs -/

/-- A window field: the pass register or a byte offset (R147, R71). -/
inductive WinField where
  | pass
  | at (base : Nat)
deriving DecidableEq, Repr

/-- A window field decoded, with the ROWLOOP offset added to an offset (R74). -/
def winField (f : BitVec 32) (off : Nat) : WinField := if f = 0xFFFFFFFF#32 then .pass else .at (f.toNat + off)

/-- What a running VOP has so far: scratchpad, pass register, result windows as a summary reads them (latest first), counts, and
FSCAN's running sum. -/
structure VRun where
  sp    : Memory
  pass  : Option (List Word32)
  wins  : List (List Word32)
  st    : StatCounts
  carry : Option Word32
deriving DecidableEq, Repr

/-- Window w of a 32-bit run. -/
def readWin (v : VRun) (f : WinField) (w : Nat) : List Word32 :=
  match f with
  | .pass => v.pass.getD (List.replicate 1024 0#32)
  | .at base => window32 (v.sp.readN (base + w * 4096) 4096)

/-- Window w of a destination run written, and remembered for the summary. -/
def writeWin (v : VRun) (f : WinField) (w : Nat) (es : List Word32) : VRun :=
  match f with
  | .pass => { v with pass := some es, wins := es :: v.wins }
  | .at base => { v with sp := v.sp.write (base + w * 4096) (bytes32 es), wins := es :: v.wins }

/-- Result elements written as window w, their counts added. -/
def putElems (v : VRun) (f : WinField) (w : Nat) (rs : List ElRes) : VRun :=
  let v := writeWin v f w (rs.map (·.val))
  { v with st := rs.foldl (fun s r => s.add r.st) v.st }

/-- Three lists zipped with a function. -/
def zip3With (f : Word32 → Word32 → Word32 → ElRes) : List Word32 → List Word32 → List Word32 → List ElRes
  | a :: as, b :: bs, c :: cs => f a b c :: zip3With f as bs cs
  | _, _, _ => []

/-- FSCAN over one window: the running sum carried in and out; element 0 of the run is A[0] itself (a signalling NaN quietened,
R137). -/
def scanElems : Option Word32 → List Word32 → List ElRes × Option Word32
  | c, [] => ([], c)
  | c, a :: r =>
    let x := match c with
      | none => withNaN [a] (.plain a)
      | some t => fAdd t a
    let p := scanElems (some x.val) r
    (x :: p.1, p.2)

/-- The fields and values a VOP works with, decoded: windows, the broadcast operand if any, immediates, formats and the row's
seed and output index for RAND. -/
structure VArgs where
  a      : WinField
  b      : WinField
  bcast  : Option Word32
  c      : WinField
  dst    : WinField
  imm    : Word32
  count  : Nat
  srcfmt : Nat
  dstfmt : Nat
  seed   : BitVec 64
  outIdx : Word32
deriving DecidableEq, Repr

/-- CVT of one window (R158): destination bytes, the values the summary reads back (R155), and counts. DESIGN CHOICE (notes/assumptions/69): a block with
an infinity and no NaN that becomes an MX block of NaN scale counts no INVALID. -/
def cvtWindow (src dst : Nat) (bytes : List Byte) : List Byte × List Word32 × StatCounts :=
  let es := windowElems src bytes
  if dst = 9 then
    let rs := es.map fun p => toF32 src p.1 p.2
    (bytes32 (rs.map (·.val)), rs.map (·.val), rs.foldl (fun s r => s.add r.st) .zero)
  else
    let xs := es.map fun p => BitVec.ofNat 32 p.2
    if isMx dst then
      let bs := (chunksOf 32 32 xs).map (mxBlock dst)
      let codes := (bs.map (·.codes)).flatten
      let back := (bs.map fun b => b.codes.map fun c => (fl32 (mxVal dst b.scale c)).val).flatten
      (packElems (elemBits dst) codes ++ bs.map (fun b => BitVec.ofNat 8 b.scale), back,
        { StatCounts.zero with saturate := (bs.map (·.sats)).sum, invalid := (xs.filter isSNaN).length })
    else
      let rs := xs.map (fromF32 dst)
      let codes := rs.map (·.1)
      let back := if dst = 10 then codes.map (BitVec.ofNat 32) else codes.map fun c => (toF32 dst 0 c).val
      (packElems (elemBits dst) codes, back, rs.foldl (fun s r => s.add r.2) .zero)

/-- The bytes of window w of a run in a format. -/
def readWinBytes (v : VRun) (fmt : Nat) (f : WinField) (w : Nat) : List Byte :=
  match f with
  | .pass => bytes32 (v.pass.getD (List.replicate 1024 0#32))
  | .at base => v.sp.readN (base + w * windowBytes fmt) (windowBytes fmt)

/-- CVT of window w of a run. The pass register never holds a narrow format (R151), so a whole window of 32-bit values fills it. -/
def cvtStep (x : VArgs) (v : VRun) (w : Nat) : VRun :=
  let r := cvtWindow x.srcfmt x.dstfmt (readWinBytes v x.srcfmt x.a w)
  let v := { v with wins := r.2.1 :: v.wins, st := v.st.add r.2.2 }
  match x.dst with
  | .pass => { v with pass := some (padTo 1024 0#32 (window32 r.1)) }
  | .at base => { v with sp := v.sp.write (base + w * windowBytes x.dstfmt) r.1 }

/-- The whole table of a GATHER. -/
def gatherTable (x : VArgs) (v : VRun) : List Word32 :=
  match x.b with
  | .pass => v.pass.getD []
  | .at base => (chunksOf 4 x.imm.toNat (v.sp.readN base (4 * x.imm.toNat))).map fun w => BitVec.ofNat 32 (leNat w)

/-- Window w of an operation computed: its sources read whole before its destination is written (R150). -/
def vopStep (op : VOp) (x : VArgs) (v : VRun) (w : Nat) : VRun :=
  let e0 := 1024 * w
  match op with
  | .cvt => cvtStep x v w
  | .iota => putElems v x.dst w ((List.range 1024).map fun e => iotaElem x.imm (e0 + e))
  | .fill => putElems v x.dst w (List.replicate 1024 (.plain x.imm))
  | .rand => putElems v x.dst w ((List.range 1024).map fun e => .plain (philoxElem x.seed x.imm x.outIdx (e0 + e)))
  | .randu =>
    putElems v x.dst w ((List.range 1024).map fun e => .plain (randuElem (philoxElem x.seed x.imm x.outIdx (e0 + e))))
  | .gather => putElems v x.dst w ((readWin v x.a w).map (gatherElem x.imm.toNat (gatherTable x v)))
  | .fscan =>
    let p := scanElems v.carry (readWin v x.a w)
    { putElems v x.dst w p.1 with carry := p.2 }
  | .summ | .summi => { v with wins := readWin v x.a w :: v.wins }
  | .topk | .mld | .statrd => v
  | _ =>
    let bs := match x.bcast with
      | some k => List.replicate 1024 k
      | none => readWin v x.b w
    putElems v x.dst w (zip3With (vElem op) (readWin v x.a w) bs (if op.uses.2.2 then readWin v x.c w else bs))

/-- Windows w to w + n − 1 in ascending order (R150). -/
def vopWindows (op : VOp) (x : VArgs) : Nat → Nat → VRun → VRun
  | 0, _, v => v
  | n + 1, w, v => vopWindows op x n (w + 1) (vopStep op x v w)

/-- The windows of a run of 32-bit elements. -/
def readRun (v : VRun) (f : WinField) (count : Nat) : List (List Word32) := (List.range count).map (readWin v f)

/-- TOPK (0x60): the whole source run is read, then the indices written, the unused elements 0xFFFF_FFFF. -/
def topkRun (x : VArgs) (v : VRun) : VRun :=
  let best := topRanked x.imm.toNat (readRun v x.a x.count).flatten
  let ix := padTo 1024 0xFFFFFFFF#32 (best.map fun p => BitVec.ofNat 32 p.2)
  { writeWin v x.dst 0 ix with wins := [] }

/-- MLD (0x48): the bytes that its granules return, written window by window. -/
def mldRun (x : VArgs) (v : VRun) (bytes : List Byte) : VRun :=
  (chunksOf 4096 x.count bytes).zipIdx.foldl (fun v p => writeWin v x.dst p.2 (window32 p.1)) v

/-- An operation over all its windows. `bytes` is what an MLD's granules return, and nothing for any other operation. -/
def vopRun (op : VOp) (x : VArgs) (bytes : List Byte) (v : VRun) : VRun :=
  match op with
  | .topk => topkRun x v
  | .mld => mldRun x v bytes
  | _ => vopWindows op x x.count 0 v

/-- The value a VOP leaves for its summary slot, if it writes one: SUMKIND's summary, or STATRD's status count. -/
def vopSummary (op : VOp) (x : VArgs) (sumkind : Nat) (ve : StatCounts) (r : VRun) : Option Word32 :=
  if op = .statrd then some (BitVec.ofNat 32 (ve.get (x.imm.toNat % 8)))
  else if sumkind = 0 then none
  else some (summaryOf (op.sumKind x.dstfmt) sumkind r.wins.reverse)

end Sys2Proof.Machine
end

