-- ==== Sys2Proof/Syntax.lean ====
section
/-! DEFINITION. Syntax.lean: the commands of the Skelzen, one constructor of Instr per row of spec/opcode_table.json, and the
plain data that the commands carry (the fields of the spec's tables, at the widths the tables give them). -/
namespace Sys2Proof

/-- The owner of a stream: the CSQ of cluster Kk runs the cluster's stream, the CC the die stream (R60). -/
inductive Owner where
  | csq (k : Fin 4)
  | cc
deriving DecidableEq, Repr

/-- The header of a command (Table 3.1), without OPCODE (the row fixes it) and GEN (stamped at issue, R81). -/
structure CmdHdr where
  waitEn    : Bool
  waitSem   : BitVec 13
  waitCount : BitVec 16
  sigEn     : Bool
  sigSem    : BitVec 13
  sigInc    : BitVec 16
  timeout   : BitVec 24
  operator  : BitVec 16
  layer     : BitVec 16
  cls       : BitVec 4
  trace     : Bool
  rowrel    : Bool
  engine    : BitVec 8
  srcfmt    : BitVec 4
  dstfmt    : BitVec 4
deriving DecidableEq, Repr

/-- One issue of a command: the stream it stands at the head of (partition, owner, instance, program: R60, Table 15.14) and
its header. -/
structure Issue where
  part  : BitVec 4
  owner : Owner
  inst  : BitVec 16
  prog  : BitVec 2
  hdr   : CmdHdr
deriving DecidableEq, Repr

/-- Matrix operands (Table 3.4). -/
structure MatOps where
  src     : BitVec 32
  aux     : BitVec 32
  m       : BitVec 16
  k       : BitVec 16
  n       : BitVec 16
  gang    : BitVec 4
  acc     : BitVec 2
  accBase : BitVec 10
deriving DecidableEq, Repr

/-- Vector operands (Table 3.5), without VOPC, which the row fixes. -/
structure VecOps where
  mod     : BitVec 8
  srcA    : BitVec 32
  srcB    : BitVec 32
  srcC    : BitVec 32
  dst     : BitVec 32
  sumslot : BitVec 4
  imm     : BitVec 32
  count   : BitVec 16
deriving DecidableEq, Repr

/-- DE and die-cache operands (Table 3.6). -/
structure DeOps where
  addrA     : GAddr
  addrB     : GAddr
  len       : BitVec 32
  rowFirst  : BitVec 16
  rowCount  : BitVec 16
  headFirst : BitVec 8
  headCount : BitVec 8
  subop     : BitVec 8
  value     : BitVec 64
deriving DecidableEq, Repr

/-- Control operands (Table 3.7). -/
structure CtlOps where
  target    : BitVec 16
  sumcl     : BitVec 4
  sumslot   : BitVec 4
  cond      : BitVec 4
  kind      : BitVec 4
  imm       : BitVec 32
  body      : BitVec 16
  stagemask : BitVec 8
  phase     : BitVec 4
  stride    : BitVec 32
deriving DecidableEq, Repr

/-- A semaphore signal: the stroke it carries and its increment (R78). -/
structure Signal where
  sem    : BitVec 13
  stroke : Stroke
  inc    : BitVec 16
deriving DecidableEq, Repr

/-- A batch table row (Table 3.10). -/
structure BatchRow where
  seed      : BitVec 64
  prompt    : GAddr
  dueStroke : Stroke
  staging   : GAddr
  cclass    : BitVec 8
  pageCount : BitVec 32
  staged    : BitVec 16
  ring      : BitVec 15
  pageList  : GAddr
  drafts    : BitVec 8
  outIndex  : BitVec 32
  chunk     : BitVec 16
  stage     : BitVec 8
  pageLog2  : BitVec 4
  kvRate    : BitVec 2
  ringMode  : Bool
  handle    : BitVec 32
  position  : BitVec 32
deriving DecidableEq, Repr

/-- A batch table: the header fields of Table 3.9 that are not counts of its rows, and the rows. -/
structure BatchTable where
  stroke   : Stroke
  inst     : BitVec 16
  catchup  : Bool
  rows     : List BatchRow
deriving DecidableEq, Repr

/-- How a packet arrives: the port, and LSEQ of its link trailer (Table 12.7). -/
structure Arrival where
  port : BitVec 5
  lseq : BitVec 12
deriving DecidableEq, Repr

/-- A fabric packet: the header of Table 12.3 and its payload granules. -/
structure Packet where
  type    : BitVec 8
  vc      : BitVec 2
  hops    : BitVec 3
  cls     : BitVec 2
  dst     : BitVec 10
  src     : BitVec 10
  spart   : BitVec 4
  dpart   : BitVec 4
  gen     : BitVec 12
  txn     : BitVec 16
  status  : BitVec 4
  addr    : GAddr
  arg     : BitVec 120
  payload : List Granule
deriving DecidableEq, Repr

/-- What the cells and lanes do to one burst while it is read: the bits flipped in the first and in the second read of the
burst (288 bits, lane l of beat b at bit 12 b + l) and, for each pattern read of a lane check that follows, the lanes that fail it (R220, R221). -/
structure BurstNoise where
  granule : Nat
  burst   : Fin 4
  first   : BitVec 288
  second  : BitVec 288
  lanes   : List (BitVec 12)
deriving DecidableEq, Repr

/-- An error that stands in the memory until a read meets it: the frame and, in it, the granule and burst, and what that read then sees. -/
structure MemErr where
  frame : BitVec 20
  noise : BurstNoise
deriving DecidableEq, Repr

/-- Noise met by one served request; the empty list is a request that meets none. -/
abbrev ReadNoise := List BurstNoise

/-- A directory update (Table 10.5). -/
structure DirUpdate where
  stroke : Stroke
  kind   : BitVec 8
  block  : BitVec 32
  module : BitVec 10
  frame  : BitVec 20
deriving DecidableEq, Repr

/-- A link-state change carried in a batch (R295, Table 12.1). -/
structure LinkState where
  module : BitVec 10
  port   : BitVec 5
  state  : BitVec 2
  width  : BitVec 2
  slots  : Bool
deriving DecidableEq, Repr

/-- One entry of a freeze queue: a granule address (memory space) and its bytes (R261). -/
structure FreezeEntry where
  addr : GAddr
  data : Granule
deriving DecidableEq, Repr

/-- A network address: an IPv6 address, or an IPv4 address in the low 32 bits, and a UDP port. -/
structure NetAddr where
  v6   : Bool
  ip   : BitVec 128
  port : BitVec 16
deriving DecidableEq, Repr

/-- The AST packet header (Table 14.2); `rsvd` collects the reserved bits [371:370] and [39:0]. -/
structure AstHdr where
  version  : BitVec 8
  ptype    : BitVec 4
  ackReq   : Bool
  resume   : Bool
  endpoint : BitVec 8
  conn     : BitVec 32
  seq      : BitVec 64
  ack      : BitVec 64
  low      : BitVec 64
  sack     : BitVec 64
  len      : BitVec 16
  window   : BitVec 16
  rsvd     : BitVec 42
deriving DecidableEq, Repr

/-- An AST message: the 8-byte header of Table 14.7 and its body bytes. `low` is [31:0]: a tag, a handle or zero. -/
structure Msg where
  type : BitVec 8
  rsvd : BitVec 8
  len  : BitVec 16
  low  : BitVec 32
  body : List Byte
deriving DecidableEq, Repr

/-- A sealed AST packet: header, messages of the body, authentication tag and the address it came from (R350, R352). -/
structure AstPkt where
  hdr  : AstHdr
  msgs : List Msg
  tag  : BitVec 128
  src  : NetAddr
deriving DecidableEq, Repr

/-- HELLO_C (Table 14.4): header, body length as received, the body's fields and the source address. -/
structure HelloC where
  hdr     : AstHdr
  bodyLen : Nat
  pace    : BitVec 16
  replace : BitVec 8
  rsvd    : BitVec 40
  nonce   : BitVec 256
  ekey    : BitVec 12544
  pubKey  : BitVec 20736
  src     : NetAddr
deriving DecidableEq, Repr

/-- HELLO_D (Table 14.5): header, endpoint number, the twin module's UDP AST port and addresses, and the fields of the handshake; sent to a client,
or received from the shared store by a module acting as AST client (R432). -/
structure HelloD where
  hdr      : AstHdr
  endpoint : BitVec 8
  twinPort : BitVec 16
  twin4    : BitVec 32
  twin6    : BitVec 128
  nonce    : BitVec 256
  ctext    : BitVec 12544
  pubKey   : BitVec 20736
  sig      : BitVec 37016
  src      : NetAddr
deriving DecidableEq, Repr

/-- FINISH: header, body length, the client signature and the source address (R355). -/
structure Finish where
  hdr     : AstHdr
  bodyLen : Nat
  sig     : BitVec 37016
  src     : NetAddr
deriving DecidableEq, Repr

/-- The body of an IP packet, as far as R347 distinguishes it. -/
inductive IpBody where
  | udp (dport : BitVec 16) (sumOk : Bool)
  | echoRequest
  | solicit (target : BitVec 128)
  | other
deriving DecidableEq, Repr

/-- The payload of a host Ethernet frame, as far as R346 and R347 distinguish it. -/
inductive EthBody where
  | pause
  | ptp
  | arp (target : BitVec 32)
  | ipv4 (dst : BitVec 32) (fragment options : Bool) (body : IpBody)
  | ipv6 (dst : BitVec 128) (fragment extHdr : Bool) (body : IpBody)
  | other
deriving DecidableEq, Repr

/-- A frame received on the host port: whether it is unicast to the module's MAC, its 802.1Q tags, its payload. -/
structure EthFrame where
  toUs : Bool
  vlan : List (BitVec 12)
  body : EthBody
deriving DecidableEq, Repr

/-- A Sync (with its Follow_Up): PTP domain and transport (Table 15.8 values), sender, origin time and the arrival timestamp on the module's own
clock, both ns (R31). -/
structure PtpSync where
  domain    : BitVec 8
  transport : BitVec 2
  gm      : BitVec 64
  origin  : BitVec 64
  arrival : BitVec 64
deriving DecidableEq, Repr

/-- The data set of an Announce that the best master clock algorithm compares (R32). -/
structure PtpAnnounce where
  domain    : BitVec 8
  transport : BitVec 2
  gm        : BitVec 64
  priority1 : BitVec 8
  clkClass  : BitVec 8
  accuracy  : BitVec 8
  variance  : BitVec 16
  priority2 : BitVec 8
  steps     : BitVec 16
  logInterval : Int
deriving DecidableEq, Repr

/-- An end-to-end delay response: when the request left here and when the master received it (R31). -/
structure PtpDelay where
  domain    : BitVec 8
  transport : BitVec 2
  gm       : BitVec 64
  sent     : BitVec 64
  received : BitVec 64
deriving DecidableEq, Repr

/-- A time message as received (R37, R38): port, source module, ORIGIN, CORRECTION (2^-16 ns), arrival and FT then. -/
structure TimeMsg where
  port       : BitVec 5
  src        : BitVec 10
  origin     : BitVec 64
  correction : BitVec 56
  arrival    : BitVec 64
deriving DecidableEq, Repr

/-- The four timestamps of a link delay exchange (R38). -/
structure DelayStamps where
  t1 : BitVec 64
  t2 : BitVec 64
  t3 : BitVec 64
  t4 : BitVec 64
deriving DecidableEq, Repr

/-- A DELAY packet (R38, Table 12.4): the far end's request with its departure there and its arrival here, or the answer to this port's own. -/
inductive DelayMsg where
  | ask (t1 t2 : BitVec 64)
  | answer (t : DelayStamps)
deriving DecidableEq, Repr

/-- What the lanes of a port show in training (Tables 12.9, 12.10): how many of its states the training passes now; lanes shorted, open, inverted; the
far lane numbers; far-end identities seen; one-way delay in ns; the far end's good-lane mask. -/
structure TrainObs where
  states   : Nat
  shorted  : BitVec 4
  open_    : BitVec 4
  inverted : BitVec 4
  permuted : Bool
  txToTx   : Bool
  looped   : Bool
  twoFar   : Bool
  farDomain : BitVec 16
  farSide  : Bool
  farModule : BitVec 10
  farPort  : BitVec 5
  farPorts : BitVec 6
  farGood  : BitVec 4
  delayNs  : Nat
deriving DecidableEq, Repr

/-- The link key exchange records (R519). -/
structure LinkOffer where
  ekey   : BitVec 12544
  pubKey : BitVec 20736
deriving DecidableEq, Repr
/-- LINK_ANSWER (R519). -/
structure LinkAnswer where
  ctext  : BitVec 12544
  pubKey : BitVec 20736
  sig    : BitVec 37016
deriving DecidableEq, Repr

/-- A JOIN record (R406). -/
structure JoinRec where
  side     : Bool
  module   : BitVec 10
  measure  : BitVec 512
  capacity : Nat
  vacated  : List (BitVec 20)
  steppings : List (BitVec 8 × BitVec 8)
deriving DecidableEq, Repr

/-- A lag report (R58, R492): the stroke, the lag in µs, whether its work is incomplete, the stretch time of the stroke in ns. -/
structure LagReport where
  stroke     : Stroke
  lag        : Nat
  incomplete : Bool
  stretch    : Nat
  overrun    : Bool
deriving DecidableEq, Repr

/-- What a module reports to its manager, by a record of which no row of the command table is the receipt (notes/assumptions/32): its lag (R58); the
subchannels in service in a partition and the capacity figure of R225 (R236); vacated frames (R239); a subchannel mapped out (R236); a partition
returned (R470); frames to be left by a module that detaches (R439); a stack's band, and whether some stack is now above THERMAL_BAND (R229); a session closed, unused by its prompt's deadline or not (R330, R345); a committed proof (R425); its pair's
divergence (R45); its twin ports (R318); a migration whose old home lost the block (R265). A lead module tells the manager of an instance that has passed
validation, and the instance's modules of one that has not (R410, R411). The new home of a migration asks its old home for the
transfer, or the freeze queue, again after a reset (R265). -/
inductive ModReport where
  | lag (r : LagReport)
  | capacity (part n frames : Nat)
  | vacated (frames : List (BitVec 20))
  | leaving (frames : List (BitVec 20))
  | subchannelOut (g : Nat)
  | partReturned (part : Nat)
  | band (stack band : Nat) (hot : Bool)
  | closed (port : BitVec 10) (handle : BitVec 32) (unused : Bool)
  | proofDone (stroke : Stroke) (inst : BitVec 16) (layer : Nat)
  | diverged (yes : Bool)
  | twinPort (up : Bool)
  | migrationLost (block : BitVec 32)
  | validated (inst : BitVec 16) (ok : Bool)
  | transferAgain (block : BitVec 32)
deriving DecidableEq, Repr

/-- The terms of an OPEN (Tables 13.1, 14.10) as the port module forwards it to the manager. -/
structure OpenTerms where
  seed    : BitVec 64
  prompt  : BitVec 32
  output  : BitVec 32
  ttft    : BitVec 16
  cadence : BitVec 8
  grace   : BitVec 8
  cclass  : BitVec 8
deriving DecidableEq, Repr

/-- An OPEN in the manager's queue: port module, endpoint, tag, terms (R336). -/
structure FwdOpen where
  port  : BitVec 10
  ep    : BitVec 8
  tag   : BitVec 32
  terms : OpenTerms
deriving DecidableEq, Repr

/-- What an acceptance allocates and fixes (R329, R334). -/
structure Grant where
  handle   : BitVec 32
  admAt    : Stroke
  first    : Stroke
  chunk    : BitVec 16
  shift    : BitVec 8
  pageLog2 : BitVec 4
  frames   : List (BitVec 32)
  area     : BitVec 32
  areaLen  : Nat
deriving DecidableEq, Repr

/-- A refusal (R335, Table 14.11). -/
structure RefuseInfo where
  code     : BitVec 8
  resource : BitVec 8
  lead     : BitVec 10
  earliest : Stroke
  admAt    : Stroke
deriving DecidableEq, Repr

/-- A decision of the AE on a forwarded OPEN (R331, R335). -/
inductive Decision where
  | accept (g : Grant)
  | refuse (r : RefuseInfo)
deriving DecidableEq, Repr

/-- A decision record (R336). -/
structure DecisionRec where
  id  : Nat
  req : FwdOpen
  dec : Decision
deriving DecidableEq, Repr

/-- A session record (Table 16.4). -/
structure SessionRec where
  seed       : BitVec 64
  first      : Stroke
  proof      : Stroke
  handle     : BitVec 32
  lp         : BitVec 32
  lo         : BitVec 32
  promptRcvd : BitVec 32
  outNext    : BitVec 32
  commitEnd  : BitVec 32
  pageCount  : BitVec 32
  breaches   : BitVec 32
  ttft       : BitVec 16
  chunk      : BitVec 16
  endpoint   : BitVec 8
  cclass     : BitVec 8
  cadence    : BitVec 8
  grace      : BitVec 8
  shifts     : BitVec 8
  pageLog2   : BitVec 4
  state      : BitVec 4
deriving DecidableEq, Repr

/-- A ring entry (Table 14.12). -/
structure RingEntry where
  token    : BitVec 32
  outIndex : BitVec 32
  due      : Stroke
  excl     : BitVec 4
  breach   : Bool
  fin      : Bool
  resent   : Bool
deriving DecidableEq, Repr

/-- The events of Table 13.9 that make a manager order a takeover, and why a module is declared failed (R463). -/
inductive FailCause where
  | missedBeats
  | failureReport (part : Option (BitVec 4))
  | lost
  | allPortsDown
deriving DecidableEq, Repr

/-- Why the deputy succeeds the manager (R440). -/
inductive SuccessionCause where
  | failureReport (part : Option (BitVec 4))
  | managerLost
  | noTimeMessages
deriving DecidableEq, Repr

/-- Why a job stops (R458). -/
inductive JobStopCause where
  | recoveryEvent
  | commandFailed
  | takeover
deriving DecidableEq, Repr

/-- Why a device reset begins (Table 18.1). -/
inductive ResetCause where
  | partitionBound
  | heartbeatLoss
  | lostSubchannel (g : BitVec 10)
  | partitionCannotReturn
  | moduleLost
  | supply
  | trip
deriving DecidableEq, Repr

/-- Where a suspended session is restored from (R442). -/
inductive RestoreSource where
  | flash
  | store
deriving DecidableEq, Repr

/-- The auxiliary outputs of Table 22.4. -/
inductive AuxOut where
  | host
  | tracing
  | fabric (k : Fin 8)
deriving DecidableEq, Repr

/-- The SMBus transactions that the target answers with NACK at the command byte (R553), and a read of a reserved code. -/
inductive SmbProto where
  | quickCommand
  | sendByte
  | writeByte
  | writeWord
  | blockWrite
  | readReserved
deriving DecidableEq, Repr

/-- A side of a scratchpad bank (R172). -/
inductive BankSide where
  | read
  | write
deriving DecidableEq, Repr

/-- The scratchpad ports of Table 7.2: those of a cluster, of the DE and of the die-to-die network. -/
inductive PadPort where
  | activation (k : Fin 4)
  | weight (k : Fin 4)
  | drain (k : Fin 4)
  | veSource (k : Fin 4) (src : Fin 3)
  | veDest (k : Fin 4)
  | deRead
  | deWrite
  | dieRead
  | dieWrite
deriving DecidableEq, Repr

/-- A request that has lost at one bank side in 1,024 consecutive cycles or more: its port and how long it has waited (R176). -/
structure Starved where
  port   : PadPort
  waited : BitVec 32
deriving DecidableEq, Repr

/-- The stalls of a command (R175, R177): the cycles in which its engine waited, and for each bank the cycles in which a request of it lost there. -/
structure Stalls where
  cycles : BitVec 32
  lost   : List (BitVec 6 × BitVec 32)
deriving DecidableEq, Repr

/-- A completion (R115, R174): the opcode that completes, the stalls that its command has met, and the errors that reads after it meet in this module's
memory. -/
structure Completion where
  opcode : BitVec 8
  stalls : Stalls
  errs   : List MemErr
deriving DecidableEq, Repr

/-- A scratchpad word that a read has found wrong: a byte of it, and whether two of its bits are flipped (R183). -/
structure WordError where
  offset : BitVec 26
  double : Bool
deriving DecidableEq, Repr

/-- The slot of a planned transfer, and the granules that link replay keeps from ending in time (R304). -/
structure SlotEvent where
  plan : BitVec 16
  held : BitVec 24
deriving DecidableEq, Repr

/-- An evacuation's turn: its partition, and the errors that its reads meet in this module's memory (R239, R240). -/
structure CopyTurn where
  part : BitVec 4
  errs : List MemErr
deriving DecidableEq, Repr

/-- The records of a batch of directory updates, and the errors that a transfer it starts meets in this module's memory (R251, R264). -/
structure DirUpdates where
  recs : List DirUpdate
  errs : List MemErr
deriving DecidableEq, Repr

/-- A packet as it comes: on which port, under which LSEQ. -/
structure Received where
  pkt : Packet
  at_ : Arrival
deriving DecidableEq, Repr

/-- A response as it comes, and the errors that the DE's reads after it meet in this module's memory. -/
structure ReceivedResp where
  pkt  : Packet
  at_  : Arrival
  errs : List MemErr
deriving DecidableEq, Repr

/-- A module's beat, and what the module has reported since the one before. -/
structure BeatReport where
  module : BitVec 10
  heard  : List ModReport
deriving DecidableEq, Repr

/-- A requester class of Table 7.2. -/
inductive PortClass where
  | matrix
  | vector
  | dma
deriving DecidableEq, Repr

/-- A trace record (Table 21.4). -/
structure TraceRec where
  ft       : BitVec 64
  stroke   : Stroke
  kind     : BitVec 8
  die      : BitVec 8
  engine   : BitVec 8
  layer    : BitVec 16
  operator : BitVec 16
  payload  : BitVec 80
deriving DecidableEq, Repr

/-- The SPACE, CODE, DIE, ENGINE and DETAIL of an alarm or event (R528). -/
structure Notice where
  space  : BitVec 8
  code   : BitVec 8
  die    : BitVec 8
  engine : BitVec 8
  detail : BitVec 32
deriving DecidableEq, Repr

/-- A store message body (Table 16.7) after NAME. -/
structure StoreData where
  name   : BitVec 64
  offset : BitVec 64
  total  : BitVec 64
  data   : List Byte
  tag    : BitVec 128
deriving DecidableEq, Repr

/-- A stage of the takeover protocol as it reaches a module (R434): the instances and the stroke of detection. -/
structure TakeoverRec where
  insts    : List (BitVec 16)
  detected : Stroke
  fromSide : Bool
deriving DecidableEq, Repr

/-- What a HANDOVER names (R438, R439): the instance, and whether this side takes its sessions or gives them. -/
structure HandoverOp where
  inst   : BitVec 16
  taking : Bool
deriving DecidableEq, Repr

/-- A record relayed between managers over the twin link (R422, R434, R482), or one for the twin module itself: the report of a cold partition reset, after
which the shadow is no longer whole (Table 16.9), the request for the job state of a committed layer-1 job proof, and the word that all of it has been sent
back (R459). -/
inductive RelayRec where
  | allocRequest (req : FwdOpen) (g : Grant)
  | shadowLost
  | jobAsk (step : Stroke)
  | jobBack (step : Stroke)
  | allocGrant (id : Nat) (g : Grant)
  | release (port : BitVec 10) (handle : BitVec 32)
  | takeover (t : TakeoverRec)
  | teardown (k : Stroke)
deriving DecidableEq, Repr

/-- A joint allocation or release relayed to or from the allocation holder (R422). -/
inductive AllocRec where
  | request (req : FwdOpen) (g : Grant)
  | granted (g : Grant)
  | release (port : BitVec 10) (handle : BitVec 32)
deriving DecidableEq, Repr

/-- The STATE packet of the twin link (Table 16.2, TKIND 0x08). -/
structure TwinStateRec where
  ft        : BitVec 64
  lag       : BitVec 32
  modState  : BitVec 2
  pairState : BitVec 2
deriving DecidableEq, Repr

/-- A PAIR packet (Table 16.2, TKIND 0x01). -/
structure PairRec where
  measure   : BitVec 512
  ft        : BitVec 64
  pairState : BitVec 8
deriving DecidableEq, Repr

/-- A PROOF commit (Table 16.1): STROKE, INSTANCE and COUNT. -/
structure CommitRec where
  stroke : Stroke
  inst   : BitVec 16
  count  : BitVec 32
deriving DecidableEq, Repr

/-- What memory training finds (R236, R404 step 4): partitions that fail, subchannels that fail. -/
structure TrainResult where
  failedParts : List (BitVec 4)
  failedSubs  : List (BitVec 10)
deriving DecidableEq, Repr

/-- The result of one engine's self-test (R477). -/
structure SelfTest where
  part   : BitVec 4
  engine : BitVec 8
  pass   : Bool
deriving DecidableEq, Repr

/-- The 10 ms averages of the inputs (R483): input power in 0.1 W, voltages in 10 mV, currents in 10 mA (Table 22.5). -/
structure PowerReading where
  power : BitVec 16
  mainV : BitVec 16
  mainI : BitVec 16
  auxV  : BitVec 16
  auxI  : BitVec 16
deriving DecidableEq, Repr

/-- The commands: one constructor per row of spec/opcode_table.json. The rows with operands come first and in the table's order, but for fourteen that only
events inside the module give, then the rows without operands: Lean's compiler builds no data with a constructor behind the 244th that has operands. -/
inductive Instr where
  | nop (i : Issue)
  | mload (i : Issue) (o : MatOps)
  | mmul (i : Issue) (o : MatOps)
  | mdrain (i : Issue) (o : MatOps)
  | fadd (i : Issue) (o : VecOps)
  | fsub (i : Issue) (o : VecOps)
  | fmul (i : Issue) (o : VecOps)
  | ffma (i : Issue) (o : VecOps)
  | fdiv (i : Issue) (o : VecOps)
  | fmin (i : Issue) (o : VecOps)
  | fmax (i : Issue) (o : VecOps)
  | fminnum (i : Issue) (o : VecOps)
  | fmaxnum (i : Issue) (o : VecOps)
  | fcmpeq (i : Issue) (o : VecOps)
  | fcmpne (i : Issue) (o : VecOps)
  | fcmplt (i : Issue) (o : VecOps)
  | fcmple (i : Issue) (o : VecOps)
  | fcmpgt (i : Issue) (o : VecOps)
  | fcmpge (i : Issue) (o : VecOps)
  | fabs (i : Issue) (o : VecOps)
  | fneg (i : Issue) (o : VecOps)
  | fsqrt (i : Issue) (o : VecOps)
  | frsqrt (i : Issue) (o : VecOps)
  | frcp (i : Issue) (o : VecOps)
  | fexp (i : Issue) (o : VecOps)
  | fexp2 (i : Issue) (o : VecOps)
  | flog (i : Issue) (o : VecOps)
  | flog2 (i : Issue) (o : VecOps)
  | ftanh (i : Issue) (o : VecOps)
  | fsigm (i : Issue) (o : VecOps)
  | fsilu (i : Issue) (o : VecOps)
  | ffloor (i : Issue) (o : VecOps)
  | fround (i : Issue) (o : VecOps)
  | iadd (i : Issue) (o : VecOps)
  | iadds (i : Issue) (o : VecOps)
  | isub (i : Issue) (o : VecOps)
  | isubs (i : Issue) (o : VecOps)
  | imul (i : Issue) (o : VecOps)
  | imuls (i : Issue) (o : VecOps)
  | iand (i : Issue) (o : VecOps)
  | ior (i : Issue) (o : VecOps)
  | ixor (i : Issue) (o : VecOps)
  | inot (i : Issue) (o : VecOps)
  | ishl (i : Issue) (o : VecOps)
  | ishr (i : Issue) (o : VecOps)
  | isra (i : Issue) (o : VecOps)
  | imin (i : Issue) (o : VecOps)
  | imax (i : Issue) (o : VecOps)
  | umin (i : Issue) (o : VecOps)
  | umax (i : Issue) (o : VecOps)
  | icmpeq (i : Issue) (o : VecOps)
  | icmplt (i : Issue) (o : VecOps)
  | ucmplt (i : Issue) (o : VecOps)
  | copy (i : Issue) (o : VecOps)
  | sel (i : Issue) (o : VecOps)
  | iota (i : Issue) (o : VecOps)
  | gather (i : Issue) (o : VecOps)
  | fill (i : Issue) (o : VecOps)
  | fscan (i : Issue) (o : VecOps)
  | summ (i : Issue) (o : VecOps)
  | summi (i : Issue) (o : VecOps)
  | mld (i : Issue) (o : VecOps)
  | cvt (i : Issue) (o : VecOps)
  | topk (i : Issue) (o : VecOps)
  | rand (i : Issue) (o : VecOps)
  | randu (i : Issue) (o : VecOps)
  | statrd (i : Issue) (o : VecOps)
  | dcopy (i : Issue) (o : DeOps)
  | dwalk (i : Issue) (o : DeOps)
  | dstage (i : Issue) (o : DeOps)
  | dseal (i : Issue) (o : DeOps)
  | sketchUpkeep (i : Issue) (o : DeOps)
  | add32 (i : Issue) (o : DeOps)
  | add64 (i : Issue) (o : DeOps)
  | smin32 (i : Issue) (o : DeOps)
  | smin64 (i : Issue) (o : DeOps)
  | smax32 (i : Issue) (o : DeOps)
  | smax64 (i : Issue) (o : DeOps)
  | umin32 (i : Issue) (o : DeOps)
  | umin64 (i : Issue) (o : DeOps)
  | umax32 (i : Issue) (o : DeOps)
  | umax64 (i : Issue) (o : DeOps)
  | swap32 (i : Issue) (o : DeOps)
  | swap64 (i : Issue) (o : DeOps)
  | cas32 (i : Issue) (o : DeOps)
  | cas64 (i : Issue) (o : DeOps)
  | fadd32 (i : Issue) (o : DeOps)
  | bfadd16 (i : Issue) (o : DeOps)
  | dsignal (i : Issue) (o : DeOps)
  | dproofRange (i : Issue) (o : DeOps)
  | dproofRow (i : Issue) (o : DeOps)
  | demit (i : Issue) (o : DeOps)
  | cinv (i : Issue) (o : DeOps)
  | brs (i : Issue) (o : CtlOps)
  | jump (i : Issue) (o : CtlOps)
  | rowloop (i : Issue) (o : CtlOps)
  | waitphase (i : Issue) (o : CtlOps)
  | streamEnd (i : Issue) (o : CtlOps)
  | invalidOpcode (word : BitVec 512)
  | commandCompletion (part : BitVec 4) (engine : BitVec 8) (c : Completion)
  | commandTimeout (i : Issue)
  | streamLimitExceeded (i : Issue)
  | signalApply (part : BitVec 4) (sig : Signal)
  | scratchpadCorrectionWriteback (part : BitVec 4) (w : WordError)
  | slackSelfTest (tests : List SelfTest) (retrained : List (BitVec 10))
  | batchTableWrite (inst : BitVec 16)
  | batchTableReceive (t : BatchTable)
  | slotStart (e : SlotEvent)
  | lateTransfer (plan : BitVec 16)
  | class5Issue (i : Issue)
  | ptpSync (m : PtpSync)
  | ptpAnnounce (m : PtpAnnounce)
  | ptpDelayResponse (m : PtpDelay)
  | time (m : TimeMsg)
  | delay (port : BitVec 5) (m : DelayMsg)
  | offPlanNotice (module : BitVec 10) (stroke : Stroke)
  | twinState (t : TwinStateRec)
  | laneCheck (g : BitVec 10) (reads : List (BitVec 12))
  | refresh (g : BitVec 10)
  | stackTemperatureRead (temps : List Int)
  | evacuationCopy (c : CopyTurn)
  | evacuationGranuleAck (part : BitVec 4)
  | patrolScrub (frame : BitVec 20) (granule : BitVec 14) (noise : ReadNoise)
  | fenceLift (block : BitVec 32)
  | uncorrectableStrokeFail (part : BitVec 4) (owner : Owner) (inst : BitVec 16)
  | rd (r : Received) (noise : ReadNoise)
  | wr (r : Received)
  | mwr (r : Received) (noise : ReadNoise)
  | atom (r : Received) (noise : ReadNoise)
  | sig (r : Received)
  | resp (r : ReceivedResp)
  | plan (r : Received)
  | late (r : Received)
  | packetForward (r : Received)
  | packetAgeExpiry (ld : BitVec 3) (p : Packet)
  | waitStoreRelease (ld : BitVec 3)
  | idle (port : BitVec 5)
  | controlAck (port : BitVec 5) (lseq : BitVec 12)
  | controlNack (port : BitVec 5) (lseq : BitVec 12)
  | credit (port : BitVec 5) (vc : BitVec 2) (hop : BitVec 3) (count : BitVec 32)
  | retrain (port : BitVec 5)
  | keyswap (port : BitVec 5)
  | linkCrcFailure (port : BitVec 5) (tagFailed : Bool)
  | replayLimit (port : BitVec 5)
  | portTraining (port : BitVec 5) (obs : TrainObs)
  | trainingRetryTimer (port : BitVec 5) (obs : TrainObs)
  | laneDegraded (port : BitVec 5) (lane : BitVec 2)
  | lossOfLock (port : BitVec 5)
  | portStateChange (c : LinkState)
  | authFailureLimit (port : BitVec 5)
  | linkRekey (port : BitVec 5)
  | linkOffer (port : BitVec 5) (r : LinkOffer)
  | linkAnswer (port : BitVec 5) (r : LinkAnswer)
  | linkConfirm (port : BitVec 5) (sig : BitVec 37016)
  | directoryUpdateBatch (seq : BitVec 32) (us : DirUpdates)
  | linkStateBatch (seq : BitVec 32) (stroke : Stroke) (cs : List LinkState)
  | migrationTransferComplete (block : BitVec 32)
  | freezeQueueReceive (block : BitVec 32) (entries : List FreezeEntry) (fenced : Bool) (prot : List GAddr)
  | frameFree (block : BitVec 32)
  | codebookFetchComplete (part : BitVec 4) (addr : GAddr)
  | ethernetFrame (f : EthFrame)
  | helloC (h : HelloC)
  | finish (f : Finish)
  | handshakeTimeout (conn : BitVec 32)
  | data (p : AstPkt)
  | ack (p : AstPkt)
  | bye (p : AstPkt)
  | resumePacket (p : AstPkt)
  | ackDelay (ep : BitVec 8)
  | retransmitTimeout (ep : BitVec 8) (seq : BitVec 64)
  | pacerSend (ep : BitVec 8)
  | openMsg (ep : BitVec 8) (m : Msg)
  | admissionQueueEnqueue (f : FwdOpen)
  | decisionRecordAck (id : Nat)
  | allocationGrant (r : AllocRec)
  | decisionReceive (d : DecisionRec)
  | prompt (ep : BitVec 8) (m : Msg)
  | promptDeadline (slot : BitVec 15)
  | tokensSend (slot : BitVec 15)
  | close (ep : BitVec 8) (m : Msg)
  | queryStatus (ep : BitVec 8) (m : Msg)
  | queryResend (ep : BitVec 8) (m : Msg)
  | queryEndpoint (ep : BitVec 8) (m : Msg)
  | observeCounters (ep : BitVec 8) (m : Msg)
  | observeAttestation (ep : BitVec 8) (m : Msg)
  | observeAlarms (ep : BitVec 8) (m : Msg)
  | dump (ep : BitVec 8) (m : Msg)
  | snapshot (ep : BitVec 8) (m : Msg)
  | storeData (d : StoreData)
  | storeDone (name : BitVec 64) (status : BitVec 8)
  | memoryTrainingDone (r : TrainResult)
  | join (j : JoinRec)
  | joined (accepted : Bool)
  | loaded (module : BitVec 10)
  | validationEntryEnd (inst : BitVec 16)
  | pair (p : PairRec)
  | twinData (stroke : Stroke) (inst : BitVec 16) (addr : GAddr) (gs : List Granule)
  | twinRecord (stroke : Stroke) (inst : BitVec 16) (rs : List SessionRec)
  | twinToken (handle : BitVec 32) (e : RingEntry)
  | commit (c : CommitRec)
  | committed (c : CommitRec)
  | relay (r : RelayRec)
  | handover (o : HandoverOp) (h : Stroke)
  | takeover (t : TakeoverRec)
  | takeoverComplete (insts : List (BitVec 16))
  | deputySuccession (c : SuccessionCause)
  | succession (k : Stroke) (by_ : BitVec 10)
  | suspendedRestore (port : BitVec 10) (slot : BitVec 15) (src : RestoreSource) (r : SessionRec)
  | restoreWaitExpiry (slot : BitVec 15)
  | jobProofCommit (layer : BitVec 2) (step : BitVec 32)
  | jobStop (c : JobStopCause)
  | heartbeat (part : BitVec 4)
  | heartbeatLoss (part : BitVec 4)
  | moduleBeat (b : BeatReport)
  | moduleFailed (module : BitVec 10) (c : FailCause)
  | engineReset (part : BitVec 4) (engine : BitVec 8)
  | engineResetBound (part : BitVec 4) (engine : BitVec 8)
  | strokeFailed (inst : BitVec 16) (stroke : Stroke) (own : Bool)
  | partitionReset (part : BitVec 4)
  | selfRefreshConfirm (part : BitVec 4) (confirmed : Bool)
  | partitionResetBound (part : BitVec 4)
  | partitionReturn (part : BitVec 4)
  | coldRewrite (block : BitVec 32) (data : List Byte)
  | deviceReset (c : ResetCause)
  | selfTestRequest (part : BitVec 4) (engine : BitVec 8)
  | selfTestFail (part : BitVec 4) (engine : BitVec 8)
  | drained (port : BitVec 10) (handle : BitVec 32) (module : BitVec 10)
  | tenantTeardown (k : Option Stroke)
  | powerStageUpdate (r : PowerReading)
  | railDroop (part : BitVec 4) (us : BitVec 32)
  | supplyWarning (mv : BitVec 17)
  | supplyWarningEnd (mv : BitVec 17)
  | mainOvervoltage (mv : BitVec 17)
  | dieTemperatureRead (cd : List Int) (ld : List Int) (inlet : Int)
  | thermalTrip (die : BitVec 8)
  | auxDomainStart (addr : BitVec 3)
  | auxiliaryOutputFault (o : AuxOut)
  | auxiliaryOutputRetry (o : AuxOut) (faulty : Bool)
  | cfgReq (claim : Bool)
  | report (offset : BitVec 32)
  | smbUnsupportedProtocol (p : SmbProto) (code : BitVec 8)
  | batchAcknowledgement (module : BitVec 10) (seq : BitVec 32)
  | helloD (h : HelloD)
  | reject (conn : BitVec 32) (reason : BitVec 8)
  | arbitrationStarvation (part : BitVec 4) (bank : BitVec 6) (side : BankSide) (reqs : List Starved)
  | jobStreamPark (part : BitVec 4) (owner : Owner)
  | retrainOverdue (g : BitVec 10)
  | reservedPacketType (r : Received)
  | slotEnd (port : BitVec 5)
  | trainingStateTimeout (port : BitVec 5)
  | sketchGapClosed (port : BitVec 10) (slot : BitVec 15) (layer : BitVec 16) (head : BitVec 8)
  | reservedAstPacket (h : AstHdr)
  | reservedMessageType (ep : BitVec 8) (m : Msg)
  | traceRecord (r : TraceRec)
  | alarm (n : Notice)
  | event (n : Notice)
  | hostPortLinkChange (up : Bool)
  | tracingPortLinkChange (up : Bool)
  | strokeBoundary
  | workStrokeAdvance
  | strokeWorkComplete
  | duePoint
  | strokeClose
  | ptpLossTimeout
  | suspectTimeout
  | timeMessageSend
  | delayExchangeSend
  | timeMessageLoss
  | directoryBatchResend
  | freezeQueueSpace
  | touchBufferSpace
  | admissionDecision
  | dumpCapture
  | mainPowerGood
  | directoryForm
  | objectLoad
  | serving
  | startTimeout
  | pairAck
  | pairRetry
  | twinLinkDown
  | proofWriter
  | detach
  | jobStepRelease
  | jobStepComplete
  | jobResume
  | powerFloor
  | supplyReset
  | tripLatchRelease
  | auxDomainStop
  | detachRequest
  | status
  | power
  | energy
  | mainV
  | mainI
  | auxV
  | auxI
  | inlet
  | hotCd
  | hotMs
  | hotLd
  | stage
  | trip
  | identity
  | label
  | smbAlertResponse
  | traceSample
  | traceFrameSend
  | traceWindowFreeze
  | traceWindowRearm
  | proofWindowStart
  | offPlanAck
deriving DecidableEq, Repr

end Sys2Proof
end

