-- ==== Sys2Proof/Machine/PartState.lean ====
section
/-! DEFINITION. PartState.lean: the state of one partition (spec/01 R14, R20): its clusters, control core, DMA engine, die cache,
scratchpad, semaphores, and what faults and observation keep for it. -/
namespace Sys2Proof.Machine

/-- What an engine command does (Table 3.3), with the operation of VOP and DATOM and the two readings of DSEAL and DPROOF. -/
inductive CmdKind where
  | nop
  | mload
  | mmul
  | mdrain
  | vop (op : VOp)
  | dcopy
  | dwalk
  | dstage
  | dseal
  | upkeep
  | datom (op : AtomOp)
  | dsignal
  | dproofRange
  | dproofRow
  | demit
  | cinv
deriving DecidableEq, Repr

/-- OPCODE (Table 3.3). -/
def CmdKind.opcode (k : CmdKind) : Nat :=
  match k with
  | .nop => 0x01
  | .mload => 0x10
  | .mmul => 0x11
  | .mdrain => 0x12
  | .vop _ => 0x20
  | .dcopy => 0x30
  | .dwalk => 0x31
  | .dstage => 0x32
  | .dseal => 0x33
  | .upkeep => 0x33
  | .datom _ => 0x34
  | .dsignal => 0x35
  | .dproofRange => 0x36
  | .dproofRow => 0x36
  | .demit => 0x37
  | .cinv => 0x38

/-- The operands of an engine command (Tables 3.4 to 3.6). -/
inductive CmdArgs where
  | none
  | mat (o : MatOps)
  | vec (o : VecOps)
  | de (o : DeOps)
deriving DecidableEq, Repr

/-- The per-command counters (R525, IDs 0x0100 to 0x010C). -/
structure CmdCounts where
  busy    : Nat
  stall   : Nat
  rdBytes : Nat
  wrBytes : Nat
  macs    : Nat
  st      : StatCounts
  sats    : Nat
deriving DecidableEq, Repr

/-- Counters at a command's start. -/
def CmdCounts.zero : CmdCounts := ⟨0, 0, 0, 0, 0, .zero, 0⟩

/-- How a command ends (Table 21.5 COMMAND outcome; REFUSED fails the stroke without a reset, Table 10.6). -/
inductive CmdEnd where
  | ok
  | uncorrectable (addr : Nat)
  | refused
deriving DecidableEq, Repr

/-- An issued engine command (R61, R81): where it came from, when it reached the head of its stream (R80), when it was issued and started, and what it
has still to do: granules read, the line writes of its result that have yet to reach the scratchpad, in their order and together where they fall in
one cycle (R278, R279), and the granules of an MLD written so far (R161). -/
structure RunCmd where
  serial   : Nat
  kind     : CmdKind
  args     : CmdArgs
  owner    : Owner
  inst     : BitVec 16
  prog     : BitVec 2
  hdr      : CmdHdr
  index    : Nat
  iter     : Option Nat
  row      : Option Nat
  off      : Nat
  gen      : BitVec 16
  stroke   : Stroke
  headAt   : Option Word64
  issuedAt : Word64
  startAt  : Option Word64
  cnt      : CmdCounts
  summary  : Option Word32
  got      : SMap Granule
  lines    : List (List (Nat × List Byte))
  puts     : List Nat
  done     : Bool
  ending   : CmdEnd
deriving DecidableEq, Repr

/-- The closed per-command counters an engine has latched, with the tag of their command and STATE (R525, Table 21.2). -/
structure ClosedCnt where
  cnt    : CmdCounts
  layer  : BitVec 16
  oper   : BitVec 16
  index  : Nat
  iter   : Option Nat
  stroke : Stroke
  state  : Nat
deriving DecidableEq, Repr

/-- When an array was last busy, in ns of FT: the start of the command started last, the end of the entry of the last MMUL's rows (R114, R121), the
last completion of an MLOAD, an MMUL and an MDRAIN, and the end of the time for which the array has counted as holding a row. -/
structure ArrayClock where
  started : Nat
  entry   : Nat
  tileAt  : Nat
  rowsAt  : Nat
  drainAt : Nat
  heldTo  : Nat
deriving DecidableEq, Repr

/-- One matrix array (R97, R105, R111): active and shadow tile, whether a completed shadow waits unswapped, accumulators keyed
128 × entry + column (unlisted: +0), commands accepted but not started, commands running, command generation, and its times. -/
structure MArray where
  active  : Option Tile
  shadow  : Option Tile
  waiting : Bool
  acc     : SMap Word32
  queue   : List RunCmd
  running : List RunCmd
  gen     : BitVec 16
  clock   : ArrayClock
deriving DecidableEq, Repr

/-- A vector engine (R151, R154, R160, R161). -/
structure Ve where
  pass    : Option (List Word32)
  slots   : Vector Word32 16
  st      : StatCounts
  queue   : List RunCmd
  running : List RunCmd
  gen     : BitVec 16
deriving DecidableEq, Repr

/-- The loop a stream is in (R74): the rows it selects, the iteration, the first body command and its length, STRIDE. -/
structure LoopState where
  rows   : List Nat
  iter   : Nat
  first  : Nat
  body   : Nat
  stride : Nat
deriving DecidableEq, Repr

/-- A stream's position (R165): the instance and program, the next command, the commands issued in the work stroke (R65), the loop,
when the command at the head reached it (R80), whether it waits on its semaphore, and the phase a WAITPHASE holds it to (R75). -/
structure StreamPos where
  inst    : BitVec 16
  prog    : BitVec 2
  pos     : Nat
  issued  : Nat
  loop    : Option LoopState
  headAt  : Option Word64
  waiting : Bool
  heldTo  : Option Word64
deriving DecidableEq, Repr

/-- A stream owner: CSQ or CC (R60, R63, R91). `ended`: instances whose stream executed END in the work stroke; `stopped`: instances
for which the owner issues nothing more in the work stroke (R243, R466); `job`: the PROGRAM 2 stream that continues from stroke to
stroke; `parked` and `grant`: it is parked (R449), and its next class 5 command may issue (R91). -/
structure OwnerState where
  serve   : StreamPos
  ended   : List (BitVec 16)
  stopped : List (BitVec 16)
  job     : StreamPos
  parked  : Bool
  grant   : Bool
  gen     : BitVec 16
deriving DecidableEq, Repr

/-- A cluster (R14). -/
structure Cluster where
  arrays : Vector MArray 4
  ve     : Ve
  csq    : OwnerState
deriving DecidableEq, Repr

/-- What becomes of the answer to a request of the DE or of a die-cache fill. -/
inductive TxUse where
  | gather
  | write
  | signal
  | atom (slot : Nat)
  | codebook (addr : Nat)
deriving DecidableEq, Repr

/-- A request of a DE or of the die cache that its home has not answered: its packet, the command it belongs to, its use, how often
MOVED has redirected it (R254), and the link die that counts it (R19, R305; none for the module itself or not yet sent). -/
structure DeReq where
  pkt    : Packet
  serial : Nat
  use    : TxUse
  moves  : Nat
  ld     : Option Nat
deriving DecidableEq, Repr

/-- The DMA engine (R14, R61, R211, R250, R308): incomplete commands in issue order, requests waiting to be sent and in flight, home
cache by block, codebook cache (record address and bytes, most recently used first), codebook fetches with the granules come so far,
the expansion queue of fetched blocks (serial number of their DWALK and record address), the tags. -/
structure DeState where
  running   : List RunCmd
  sendq     : List DeReq
  inflight  : List DeReq
  nextTxn   : BitVec 16
  homeCache : SMap (BitVec 32)
  books     : List (Nat × List Byte)
  bookFetch : List (Nat × SMap Granule)
  expq      : List (Nat × Nat)
  gen       : BitVec 16
  fgen      : BitVec 12
  fgenAt    : Option Word64
deriving DecidableEq, Repr

/-- The die cache (R274): lines by granule address / 128, commands accepted and running, command generation, and the granules of
fills in flight that a CINV has covered (R275). -/
structure DieCache where
  lines   : SMap Granule
  queue   : List RunCmd
  running : List RunCmd
  gen     : BitVec 16
  noKeep  : List Nat
deriving DecidableEq, Repr

/-- A semaphore (Table 3.8). -/
structure Sem where
  stroke : Stroke
  count  : BitVec 16
deriving DecidableEq, Repr

/-- A semaphore's reset value. -/
def Sem.zero : Sem := ⟨0#48, 0#16⟩

/-- A signal that its engine releases once every earlier command of the engine is complete (R79, R270, R271): to a local semaphore
or to a global semaphore address. -/
structure Release where
  engine : Nat
  serial : Nat
  target : Option GAddr
  sig    : Signal
deriving DecidableEq, Repr

/-- An engine reset in progress (R461): the engine code, when it began and whether a self-test began it (R479). -/
structure EngReset where
  engine   : Nat
  since    : Word64
  selfTest : Bool
deriving DecidableEq, Repr

/-- A partition reset in progress (R468, Table 18.3): when it began and whether it is warm, once decided. -/
structure PartReset where
  since : Word64
  warm  : Option Bool
deriving DecidableEq, Repr

/-- A tally entry (R526). -/
structure TallyEntry where
  layer : BitVec 16
  oper  : BitVec 16
  cnt   : CmdCounts
deriving DecidableEq, Repr

/-- A map-out of a local subchannel (R236 to R239): whether it has begun, evacuation granules copied so far, whether its vacated blocks
have all switched, whether the subchannel has left service. -/
structure MapOut where
  sub    : Nat
  begun  : Bool
  copied : Nat
  ready  : Bool
  out    : Bool
deriving DecidableEq, Repr

/-- One partition. Reset values: engines idle, tiles unloaded, everything zero or empty (R105, R120, R154, R164, R182), generations
0 (R476); `bad` lists the 8-byte scratchpad words that hold an uncorrectable error and `fixed` counts corrections (R183); `starved` counts the grants
of R176 by bank; `issued` the
engines with the instances that issued commands to them in the work stroke (R466). -/
structure Part where
  sp        : Memory
  bad       : List Nat
  fixed     : Nat
  starved   : SMap Nat
  clusters  : Vector Cluster 4
  cc        : OwnerState
  beatAt    : Word64
  de        : DeState
  dcache    : DieCache
  sems      : SMap Sem
  early     : List Signal
  releases  : List Release
  nextSer   : Nat
  reset     : Option PartReset
  engResets : List EngReset
  testFails : List Nat
  pendTests : List Nat
  tally     : List TallyEntry
  tallyOver : CmdCounts
  closed    : SMap ClosedCnt
  traceq    : List TraceRec
  traceLost : Option (BitVec 64 × Nat)
  mapOuts   : List MapOut
  issued    : List (Nat × BitVec 16)
deriving DecidableEq, Repr

/-! ## Reset values -/

/-- An idle array: unloaded, accumulators +0. -/
def MArray.reset : MArray := ⟨none, none, false, [], [], [], 0#16, ⟨0, 0, 0, 0, 0, 0⟩⟩
/-- An idle vector engine (R154, R164). -/
def Ve.reset : Ve := ⟨none, Vector.replicate 16 0#32, .zero, [], [], 0#16⟩
/-- A stream at its start. -/
def StreamPos.reset : StreamPos := ⟨0#16, 0#2, 0, 0, none, none, false, none⟩
/-- An idle owner. -/
def OwnerState.reset : OwnerState := ⟨.reset, [], [], .reset, false, false, 0#16⟩
/-- An idle cluster. -/
def Cluster.reset : Cluster := ⟨Vector.replicate 4 .reset, .reset, .reset⟩
/-- An idle DMA engine. -/
def DeState.reset : DeState := ⟨[], [], [], 0#16, [], [], [], [], 0#16, 0#12, none⟩
/-- An empty die cache. -/
def DieCache.reset : DieCache := ⟨[], [], [], 0#16, []⟩
/-- A partition after reset. -/
def Part.atReset : Part :=
  { sp := [], bad := [], fixed := 0, starved := [], clusters := Vector.replicate 4 .reset, cc := .reset, beatAt := 0#64, de := .reset, dcache := .reset,
    sems := [], early := [], releases := [], nextSer := 0, reset := none, engResets := [], testFails := [], pendTests := [],
    tally := [], tallyOver := .zero, closed := [], traceq := [], traceLost := none, mapOuts := [], issued := [] }

end Sys2Proof.Machine
end

