-- ==== Sys2Proof/Decode.lean ====
section
/-! DEFINITION. Decode.lean: the words of the command table, which gives its rows no bits, and the decoder of the 512-bit commands of a plate's
streams (spec/03_step_programs_and_batching.md R66 to R73, Tables 3.1 to 3.7), total and rejecting by name. -/
namespace Sys2Proof
open Machine

/-- The command that a word of spec/opcode_table.json spells: its rows give no bits, so no word spells one. -/
def decodeTableWord (_nbits _w : Nat) : Option Instr := none

/-! ## Plate commands -/

/-- Bits [hi:lo] of a command. -/
def cbits (w : BitVec 512) (hi lo : Nat) : Nat := bitsOf w.toNat hi lo

/-- A field of a command at a width. -/
def cfield (n : Nat) (w : BitVec 512) (hi lo : Nat) : BitVec n := BitVec.ofNat n (cbits w hi lo)

/-- OPCODE. -/
def wordOpcode (w : BitVec 512) : Nat := cbits w 7 0

/-- GEN, zero in a plate. -/
def wordGen (w : BitVec 512) : Nat := cbits w 103 88

/-- The header of a command (Table 3.1). -/
def wordHdr (w : BitVec 512) : CmdHdr :=
  { waitEn := w.getLsbD 191, waitSem := cfield 13 w 190 178, waitCount := cfield 16 w 175 160, sigEn := w.getLsbD 159,
    sigSem := cfield 13 w 158 146, sigInc := cfield 16 w 143 128, timeout := cfield 24 w 127 104, operator := cfield 16 w 63 48,
    layer := cfield 16 w 47 32, cls := cfield 4 w 31 28, trace := w.getLsbD 27, rowrel := w.getLsbD 26, engine := cfield 8 w 23 16,
    srcfmt := cfield 4 w 15 12, dstfmt := cfield 4 w 11 8 }

/-- Reserved bits of the header. -/
def hdrRsvd (w : BitVec 512) : Bool := cbits w 177 176 ≠ 0 || cbits w 145 144 ≠ 0 || cbits w 87 64 ≠ 0 || cbits w 25 24 ≠ 0

/-- Matrix operands (Table 3.4). -/
def wordMat (w : BitVec 512) : MatOps :=
  { src := cfield 32 w 511 480, aux := cfield 32 w 479 448, m := cfield 16 w 447 432, k := cfield 16 w 431 416, n := cfield 16 w 415 400,
    gang := cfield 4 w 399 396, acc := cfield 2 w 395 394, accBase := cfield 10 w 393 384 }

/-- Vector operands (Table 3.5). -/
def wordVec (w : BitVec 512) : VecOps :=
  { mod := cfield 8 w 503 496, srcA := cfield 32 w 495 464, srcB := cfield 32 w 463 432, srcC := cfield 32 w 431 400,
    dst := cfield 32 w 399 368, sumslot := cfield 4 w 363 360, imm := cfield 32 w 351 320, count := cfield 16 w 319 304 }

/-- DE and die-cache operands (Table 3.6). -/
def wordDe (w : BitVec 512) : DeOps :=
  { addrA := cfield 56 w 503 448, addrB := cfield 56 w 439 384, len := cfield 32 w 383 352, rowFirst := cfield 16 w 351 336,
    rowCount := cfield 16 w 335 320, headFirst := cfield 8 w 319 312, headCount := cfield 8 w 311 304, subop := cfield 8 w 303 296,
    value := cfield 64 w 255 192 }

/-- Control operands (Table 3.7). -/
def wordCtl (w : BitVec 512) : CtlOps :=
  { target := cfield 16 w 511 496, sumcl := cfield 4 w 495 492, sumslot := cfield 4 w 491 488, cond := cfield 4 w 487 484,
    kind := cfield 4 w 483 480, imm := cfield 32 w 479 448, body := cfield 16 w 447 432, stagemask := cfield 8 w 431 424,
    phase := cfield 4 w 423 420, stride := cfield 32 w 415 384 }

/-- VOPC of a VOP. -/
def wordVopc (w : BitVec 512) : Nat := cbits w 511 504

/-- The vector operations, to look a VOPC up. -/
def allVOps : List VOp :=
  [.fadd, .fsub, .fmul, .ffma, .fdiv, .fmin, .fmax, .fminnum, .fmaxnum, .fcmp .eq, .fcmp .ne, .fcmp .lt, .fcmp .le, .fcmp .gt, .fcmp .ge,
   .fabs, .fneg, .fsqrt, .frsqrt, .frcp, .fexp, .fexp2, .flog, .flog2, .ftanh, .fsigm, .fsilu, .ffloor, .fround] ++
  [.iadd, .iadds, .isub, .isubs, .imul, .imuls, .iand, .ior, .ixor, .inot, .ishl, .ishr, .isra, .imin, .imax, .umin, .umax, .icmpeq, .icmplt,
   .ucmplt, .copy, .sel, .iota, .gather, .fill, .fscan, .summ, .summi, .mld, .cvt, .topk, .rand, .randu, .statrd]

/-- The vector operation of a VOPC (Table 6.4). -/
def vopOf (code : Nat) : Option VOp := allVOps.find? fun o => o.code = code

/-- A plate command by its opcode group (Table 3.3). -/
inductive PlateCmd where
  | nop
  | mat (opcode : Nat) (o : MatOps)
  | vec (op : VOp) (o : VecOps)
  | de (opcode : Nat) (o : DeOps)
  | cinv (o : DeOps)
  | ctl (opcode : Nat) (o : CtlOps)
deriving DecidableEq, Repr

/-- Why a command word is rejected. -/
inductive WordErr where
  | invalidOpcode
  | reservedOpcode
  | reservedVopc
  | reservedBits
deriving DecidableEq, Repr

/-- Reserved bits of the operand area of an opcode group (Tables 3.4 to 3.7). -/
def operandRsvd (w : BitVec 512) : Bool :=
  let c := wordOpcode w
  if c = 0x01 then cbits w 511 192 ≠ 0
  else if c < 0x20 then cbits w 383 192 ≠ 0 || (c ≠ 0x12 && cbits w 479 448 ≠ 0)
  else if c = 0x20 then cbits w 367 364 ≠ 0 || cbits w 359 352 ≠ 0 || cbits w 303 192 ≠ 0
  else if c < 0x40 then
    cbits w 511 504 ≠ 0 || cbits w 447 440 ≠ 0 || cbits w 295 256 ≠ 0 || (c = 0x35 && cbits w 255 208 ≠ 0)
  else cbits w 419 416 ≠ 0 || cbits w 383 192 ≠ 0

/-- A plate command decoded. -/
def decodeWord (w : BitVec 512) : Except WordErr PlateCmd :=
  let c := wordOpcode w
  if c = 0 then .error .invalidOpcode
  else if hdrRsvd w || operandRsvd w then .error .reservedBits
  else if c = 0x01 then .ok .nop
  else if 0x10 ≤ c && c ≤ 0x12 then .ok (.mat c (wordMat w))
  else if c = 0x20 then
    match vopOf (wordVopc w) with
    | some op => .ok (.vec op (wordVec w))
    | none => .error .reservedVopc
  else if 0x30 ≤ c && c ≤ 0x37 then .ok (.de c (wordDe w))
  else if c = 0x38 then .ok (.cinv (wordDe w))
  else if 0x40 ≤ c && c ≤ 0x44 then .ok (.ctl c (wordCtl w))
  else .error .reservedOpcode

end Sys2Proof
end

