-- ==== Sys2Proof/Machine/Plate.lean ====
section
/-! DEFINITION. Plate.lean: the plate as plain data, section by section (spec/15_startup_from_the_plate.md Tables 15.4 to 15.18 and
the tables of other chapters that Table 15.6 names). A field `rsvd` says that some reserved bit of the record is nonzero (R9). -/
namespace Sys2Proof.Machine

/-- Plate header (Table 15.4). -/
structure PlateHeader where
  magic     : BitVec 32
  format    : BitVec 16
  sections  : BitVec 16
  length    : BitVec 32
  sigOffset : BitVec 32
  serial    : BitVec 64
  domainId  : BitVec 16
  rsvd      : Bool
deriving DecidableEq, Repr

/-- Section table entry (Table 15.5). -/
structure SectionEntry where
  type      : BitVec 8
  entrySize : BitVec 16
  count     : BitVec 32
  offset    : BitVec 32
  length    : BitVec 32
  rsvd      : Bool
deriving DecidableEq, Repr

/-- Domain record (Table 15.8) and the grandmaster identities that follow it. -/
structure DomainRec where
  epoch        : BitVec 64
  period       : BitVec 32
  proofWin     : BitVec 32
  slack        : BitVec 32
  slotLen      : BitVec 16
  horizon      : BitVec 8
  streamLimit  : BitVec 24
  dirBlocksM1  : BitVec 32
  manager      : BitVec 10
  deputy       : BitVec 10
  sizeM1       : BitVec 10
  powerLimit   : BitVec 16
  startTimeout : BitVec 16
  ptpDomain    : BitVec 8
  ptpTransport : BitVec 2
  gmCount      : BitVec 4
  gms          : List (BitVec 64)
  rsvd         : Bool
deriving DecidableEq, Repr

/-- Module entry (Table 15.9). -/
structure ModuleEntry where
  identity : BitVec 512
  module   : BitVec 10
  side     : Bool
  variant  : BitVec 2
  rsvd     : Bool
deriving DecidableEq, Repr

/-- Setup record (Table 20.3). -/
structure Setup where
  operator    : BitVec 512
  tenant      : BitVec 512
  plateSigner : BitVec 512
  members     : BitVec 512
  notAfter    : BitVec 64
  ceiling     : BitVec 16
  obsLevel    : BitVec 2
  linkEnc     : Bool
  epoch       : BitVec 16
  clients     : BitVec 16
  slots       : BitVec 16
  changes     : BitVec 8
  rsvd        : Bool
deriving DecidableEq, Repr

/-- Key slot (Table 20.4). -/
structure KeySlot where
  module : BitVec 10
  side   : Bool
  ctext  : BitVec 12544
  root   : BitVec 384
  rsvd   : Bool
deriving DecidableEq, Repr

/-- Change record (Table 20.5). -/
structure ChangeRec where
  counter : BitVec 64
  kind    : BitVec 8
  first   : BitVec 8
  old     : BitVec 512
  new     : BitVec 512
  pk1     : BitVec 20736
  sig1    : BitVec 37016
  pk2     : BitVec 20736
  sig2    : BitVec 37016
  rsvd    : Bool
deriving DecidableEq, Repr

/-- The PROTECTION section (R503). -/
structure Protection where
  setup   : Setup
  clients : List (BitVec 512)
  slots   : List KeySlot
  changes : List ChangeRec
deriving DecidableEq, Repr

/-- The FIRMWARE section as the model sees it (R391: its format is not an interface): version, measurement, signature. -/
structure Firmware where
  version : BitVec 64
  measure : BitVec 512
  sig     : BitVec 37016
deriving DecidableEq, Repr

/-- Host port record (Table 15.10). -/
structure HostPortRec where
  ipv6     : BitVec 128
  gateway6 : BitVec 128
  ringBase : GAddr
  pfx6     : BitVec 8
  ipv4     : BitVec 32
  gateway4 : BitVec 32
  pfx4     : BitVec 8
  astPort  : BitVec 16
  vlan     : BitVec 12
  echo     : Bool
  side     : Bool
  module   : BitVec 10
  rsvd     : Bool
deriving DecidableEq, Repr

/-- Object entry (Table 15.11). -/
structure ObjectEntry where
  digest    : BitVec 512
  name      : BitVec 64
  length    : BitVec 64
  blockBase : BitVec 32
  kind      : BitVec 4
  rsvd      : Bool
deriving DecidableEq, Repr

/-- DATA record (Table 15.12) and its bytes. -/
structure DataRec where
  dest  : GAddr
  bytes : List Byte
  rsvd  : Bool
deriving DecidableEq, Repr

/-- Placement entry (Table 10.7). -/
structure PlaceEntry where
  blockBase  : BitVec 32
  blockCount : BitVec 32
  module     : BitVec 10
  mods       : BitVec 10
  frameBase  : BitVec 20
  use        : BitVec 4
  pinned     : Bool
  inst       : BitVec 16
  rsvd       : Bool
deriving DecidableEq, Repr

/-- Spread entry (Table 9.5). -/
structure Spread where
  frameBase  : BitVec 32
  frameCount : BitVec 32
  offsetBase : BitVec 32
  parts      : BitVec 16
  rsvd       : Bool
deriving DecidableEq, Repr

/-- Tagged INTERLEAVE record (R390). -/
structure InterleaveRec where
  module  : BitVec 10
  part    : BitVec 5
  spreads : List Spread
  rsvd    : Bool
deriving DecidableEq, Repr

/-- Bank group entry (Table 7.4). -/
structure GroupEntry where
  kind     : BitVec 4
  clusters : BitVec 4
  image    : BitVec 16
  rsvd     : Bool
deriving DecidableEq, Repr

/-- Scratchpad allocation record (R179): group entries and BATCH_BASE of each instance in ascending number. -/
structure ScratchRec where
  module    : BitVec 10
  part      : BitVec 5
  groups    : List GroupEntry
  batchBase : List (BitVec 32)
  rsvd      : Bool
deriving DecidableEq, Repr

/-- Instance record (Table 15.13). -/
structure InstanceRec where
  inst       : BitVec 16
  lead       : BitVec 10
  modFirst   : BitVec 10
  modCountM1 : BitVec 10
  maxRows    : BitVec 13
  rsvd       : Bool
deriving DecidableEq, Repr

/-- Stream entry (Table 15.14) and the stream's command words. -/
structure StreamRec where
  inst     : BitVec 16
  program  : BitVec 2
  module   : BitVec 10
  part     : BitVec 4
  owner    : BitVec 3
  dest     : GAddr
  commands : List (BitVec 512)
  rsvd     : Bool
deriving DecidableEq, Repr

/-- KV descriptor (Table 8.1). -/
structure KvDesc where
  cb2         : GAddr
  cb1         : GAddr
  cb05        : GAddr
  layers      : BitVec 16
  kvHeads     : BitVec 8
  pagesMax    : BitVec 16
  walkSlots   : BitVec 16
  selTop      : BitVec 8
  selRecent   : BitVec 8
  pgMin       : BitVec 4
  pgMax       : BitVec 4
  repsLog2    : BitVec 4
  expFmt      : BitVec 4
  rates       : BitVec 3
  upkeepPages : BitVec 16
  ringSize    : BitVec 8
  ringIndex   : BitVec 8
  rowStride   : BitVec 32
  rsvd        : Bool
deriving DecidableEq, Repr

/-- KV record of one partition for one instance (Table 15.6, TYPE 0x0D). -/
structure KvRec where
  module  : BitVec 10
  part    : BitVec 5
  inst    : BitVec 16
  desc    : KvDesc
  rsvd    : Bool
  tagRsvd : Bool
deriving DecidableEq, Repr

/-- Hop entry (Table 15.16). -/
structure HopRec where
  module : BitVec 10
  port   : BitVec 5
  slot   : BitVec 18
  rsvd   : Bool
deriving DecidableEq, Repr

/-- Planned transfer (Table 15.15) and its hop entries. -/
structure PlanRec where
  src        : GAddr
  dst        : GAddr
  total      : BitVec 24
  readySem   : BitVec 13
  readyCount : BitVec 16
  sigEn      : Bool
  sigSem     : BitVec 13
  sigInc     : BitVec 16
  inst       : BitVec 16
  hops       : BitVec 4
  route      : List HopRec
  rsvd       : Bool
deriving DecidableEq, Repr

/-- Contract class entry (Table 13.2). -/
structure ClassEntry where
  promptMax  : BitVec 32
  outputMax  : BitVec 32
  inst       : BitVec 16
  cadenceMin : BitVec 8
  cadenceMax : BitVec 8
  graceMin   : BitVec 8
  recovery   : BitVec 8
  draftsMax  : BitVec 8
  rate       : BitVec 2
  chunkMin   : BitVec 16
  chunkMax   : BitVec 16
  rsvd       : Bool
deriving DecidableEq, Repr

/-- Admission header (Table 13.3). -/
structure AdmHeader where
  resTwin     : BitVec 16
  resCatch    : BitVec 16
  fabShare    : BitVec 16
  thermalBand : BitVec 8
  twinned     : BitVec 8
  rsvd        : Bool
deriving DecidableEq, Repr

/-- Cost entry (Table 13.6). -/
structure CostEntry where
  time : BitVec 32
  read : BitVec 32
  xfer : BitVec 32
  slot : BitVec 32
deriving DecidableEq, Repr

/-- Instance admission record (Table 13.4) and its cost table, entry of kind k and bucket b at index 24 k + b (R324). -/
structure AdmRec where
  base     : CostEntry
  slotCap  : BitVec 32
  detect   : BitVec 32
  inst     : BitVec 16
  costs    : List CostEntry
  rsvd     : Bool
deriving DecidableEq, Repr

/-- Symbol entry (Table 15.17). -/
structure SymbolRec where
  kind   : BitVec 8
  id     : BitVec 24
  addr   : GAddr
  length : BitVec 32
  format : BitVec 4
  name   : BitVec 128
  rsvd   : Bool
deriving DecidableEq, Repr

/-- Validation entry (Table 15.18) with its prompt and expected tokens. -/
structure ValidRec where
  seed     : BitVec 64
  inst     : BitVec 16
  cclass   : BitVec 8
  prompt   : List Word32
  output   : BitVec 16
  expected : List Word32
  matchN   : BitVec 16
  rsvd     : Bool
deriving DecidableEq, Repr

/-- Proof record (Table 16.6). -/
structure ProofRec where
  storeKey    : BitVec 512
  storeIp6    : BitVec 128
  storeIp4    : BitVec 32
  storePort   : BitVec 16
  flashEvery  : BitVec 16
  storeEvery  : BitVec 16
  restoreWait : BitVec 16
  landingMib  : BitVec 16
  flashGib    : BitVec 16
  rsvd        : Bool
deriving DecidableEq, Repr

/-- Schedule point (Table 17.3). -/
structure SchedPoint where
  step : BitVec 32
  lr   : Word32
deriving DecidableEq, Repr

/-- Group record (Table 17.2) with its schedule points. -/
structure GroupRec where
  beta1  : Word32
  beta2  : Word32
  eps    : Word32
  decay  : Word32
  kind   : BitVec 2
  points : List SchedPoint
  rsvd   : Bool
deriving DecidableEq, Repr

/-- Range entry (Table 17.4). -/
structure RangeRec where
  addr     : GAddr
  granules : BitVec 32
  rsvd     : Bool
deriving DecidableEq, Repr

/-- The TUNING section (R443). -/
structure Tuning where
  inst      : BitVec 16
  jobBase   : GAddr
  stepsMax  : BitVec 32
  rootEvery : BitVec 16
  every1    : BitVec 16
  every2    : BitVec 16
  every3    : BitVec 16
  groups    : List GroupRec
  ranges    : List RangeRec
  rsvd      : Bool
deriving DecidableEq, Repr

/-- Trace entry (Table 21.7). -/
structure TraceEntry where
  module    : BitVec 10
  destMac   : BitVec 48
  ovfBase   : GAddr
  ovfGib    : BitVec 8
  dumpBase  : GAddr
  dumpMib   : BitVec 16
  mode      : Bool
  rearm     : Bool
  postCount : BitVec 32
  trigKind  : BitVec 8
  trigSpace : BitVec 8
  trigCode  : BitVec 8
  trigLayer : BitVec 16
  trigOp    : BitVec 16
  trigValue : BitVec 32
  sampleUs  : BitVec 32
  kindMask  : BitVec 8
  rsvd      : Bool
  tagRsvd   : Bool
deriving DecidableEq, Repr

/-- A plate (R388 to R401). `signer` and `sig` are the signature block's key and signature. -/
structure Plate where
  header     : PlateHeader
  sections   : List SectionEntry
  domain     : DomainRec
  modules    : List ModuleEntry
  protection : Protection
  firmware   : Option Firmware
  hostports  : List HostPortRec
  objects    : List ObjectEntry
  data       : List DataRec
  placement  : List PlaceEntry
  interleave : List InterleaveRec
  scratch    : List ScratchRec
  instances  : List InstanceRec
  programs   : List StreamRec
  kv         : List KvRec
  slotplan   : List PlanRec
  classes    : List ClassEntry
  admission  : AdmHeader
  admRecs    : List AdmRec
  symbols    : List SymbolRec
  validate   : List ValidRec
  proof      : ProofRec
  tuning     : Option Tuning
  trace      : Option (List TraceEntry)
  signer     : BitVec 20736
  sig        : BitVec 37016
deriving DecidableEq, Repr

end Sys2Proof.Machine
end

