-- ==== Sys2Proof/Machine/SessState.lean ====
section
/-! DEFINITION. SessState.lean: the state of sessions, of the manager's admission engine, and of the request transport
(spec/13, spec/14, spec/16). -/
namespace Sys2Proof.Machine

/-! ## Sessions -/

/-- An output held until its due stroke (R91): its index, its token and its END mark. -/
structure HeldOut where
  index : Nat
  token : Word32
  fin   : Bool
deriving DecidableEq, Repr

/-- A proof mark (R424). -/
structure Mark where
  proof      : Stroke
  commitEnd  : Nat
  pageCount  : Nat
  promptRcvd : Nat
deriving DecidableEq, Repr

/-- How a session closed (R340, R377, R480): the reason and exclusion of Table 14.13, the stroke, whether this module has sent DRAINED for
it. -/
structure Closing where
  reason  : BitVec 8
  excl    : BitVec 4
  stroke  : Stroke
  drained : Bool
deriving DecidableEq, Repr

/-- The row with which a restored session resumes (R435). -/
structure ReplayRow where
  stage    : BitVec 8
  position : Nat
  chunk    : Nat
  prompt   : GAddr
deriving DecidableEq, Repr

/-- A session as this module knows it: its contract and allocations (R321, R334), the prompt received and processed, the next output
to produce and the next to send, held outputs (R91), its ring (R373, keyed OUT_INDEX mod 64), breaches and shifts, its proof marks by
layer (R424), the twin's committed proof record and history (R425, R429), its session records of the last closes (R423, R467), the row of its restore, when and
under which exclusion it was suspended (R442), sketch slabs still incomplete (R203, keyed 256 × layer + head), whether this module
holds it for its twin (R434), how it closed, and the VALIDATE entry it belongs to (R410); `client`: the client identity that opened it
(R442). -/
structure Session where
  handle     : BitVec 32
  client     : BitVec 512
  port       : BitVec 10
  ep         : BitVec 8
  terms      : OpenTerms
  inst       : BitVec 16
  admAt      : Stroke
  first      : Stroke
  chunk      : BitVec 16
  pageLog2   : BitVec 4
  frames     : List (BitVec 32)
  area       : BitVec 32
  areaLen    : Nat
  order      : Nat
  rcvd       : Nat
  commitEnd  : Nat
  pageCount  : Nat
  outNext    : Nat
  sendNext   : Nat
  held       : List HeldOut
  ring       : SMap RingEntry
  breaches   : Nat
  shifts     : Nat
  lastRow    : Stroke
  marks      : SMap Mark
  proofRec   : Option SessionRec
  history    : List RingEntry
  resumes    : List SessionRec
  replay     : Option ReplayRow
  suspended  : Option (Word64 × BitVec 4)
  incomplete : List Nat
  held2      : Bool
  endAt      : Option Nat
  closing    : Option Closing
  valid      : Option Nat
deriving DecidableEq, Repr

/-- What names a session in a domain: its port module and its handle, which is unique on that module (R334). -/
structure SessKey where
  port   : BitVec 10
  handle : BitVec 32
deriving DecidableEq, Repr

/-- The key of a session. -/
def Session.key (x : Session) : SessKey := ⟨x.port, x.handle⟩

/-- An exclusion's interval on this module (R343): its code, the session it is confined to (code 0x4 with grace 0, codes 0x5, 0x6,
0x9), the strokes of its beginning and end (none: still in force). -/
structure ExclSpan where
  code  : Nat
  only  : Option SessKey
  start : Stroke
  stop  : Option Stroke
deriving DecidableEq, Repr

/-- A batch row set aside by R85 for the next stroke's table. -/
structure CarriedRow where
  inst : BitVec 16
  row  : BatchRow
deriving DecidableEq, Repr

/-! ## The manager and its admission engine -/

/-- The states of R337. -/
inductive AdmState where
  | normal
  | exposed
  | strained
deriving DecidableEq, Repr

/-- What the manager holds of a module (R337, R338, R407, R410, R463): its JOIN, LOADED, the FT of its last beat, failed, OFF-PLAN
since, its last lag report (µs, incomplete), overrun mark, state, taken-over sessions, a stack above THERMAL_BAND, a capacity alarm,
twin time divergence, the smallest subchannel count of a partition in service. -/
structure ModInfo where
  joined     : Option JoinRec
  loaded     : Bool
  beatAt     : Word64
  failed     : Bool
  offPlan    : Option Stroke
  lag        : Nat
  lagStroke  : Stroke
  incomplete : Bool
  overrun    : Bool
  adm        : AdmState
  twinAdm    : AdmState
  takenOver  : Bool
  hot        : Bool
  capAlarm   : Bool
  diverged   : Bool
  nMin       : Nat
deriving DecidableEq, Repr

/-- A ledger entry (R331, R341, R345): an accepted session's schedule; its charges are those that R325 derives from it. `stop`: the
first stroke from which the charges are removed; `replays`: strokes charged for a restore; `held`: taken over for the twin; `drained`: modules that have sent DRAINED; `released`: its
allocations are free again (R480); `ring`: charged at the ring-mode entries (R213). -/
structure LedgerEntry where
  handle   : BitVec 32
  port     : BitVec 10
  terms    : OpenTerms
  inst     : BitVec 16
  admAt    : Stroke
  first    : Stroke
  chunk    : BitVec 16
  pageLog2 : BitVec 4
  frames   : List (BitVec 32)
  frameLen : Nat
  area     : BitVec 32
  areaLen  : Nat
  begin_   : Stroke
  stop     : Option Stroke
  replays  : List Stroke
  held     : Bool
  drained  : List (BitVec 10)
  released : Bool
  ring     : Bool
deriving DecidableEq, Repr

/-- The key of an entry's session. -/
def LedgerEntry.key (e : LedgerEntry) : SessKey := ⟨e.port, e.handle⟩

/-- The manager's admission state (R331 to R337, R422): admission open (R411), the queue, decisions waiting for the deputy, decision
records by id, the ledger, each slot's previous generation keyed 32768 × module + slot (R334), blocks and ring slots known to be
taken on the twin side, and what it holds of the modules by ID. `manager`, `deputy`: the module IDs now in force; `declared`: modules
declared failed from the next boundary on (R463). -/
structure AeState where
  isOpen   : Bool
  queue    : List FwdOpen
  awaiting : List DecisionRec
  records  : List DecisionRec
  nextId   : Nat
  ledger   : List LedgerEntry
  prevGen  : SMap Nat
  twinUsed : List LedgerEntry
  mods     : SMap ModInfo
  manager  : BitVec 10
  deputy   : Option (BitVec 10)
  relayUp  : Bool
  dirty    : Bool
  declared : List Nat
deriving DecidableEq, Repr

/-- The admission state after reset. -/
def AeState.reset : AeState :=
  { isOpen := false, queue := [], awaiting := [], records := [], nextId := 0, ledger := [], prevGen := [],
    twinUsed := [], mods := [], manager := 0#10, deputy := none, relayUp := false, dirty := false, declared := [] }

/-- A module of which nothing is known. -/
def ModInfo.zero : ModInfo :=
  { joined := none, loaded := false, beatAt := 0#64, failed := false, offPlan := none, lag := 0, lagStroke := 0#48,
    incomplete := false, overrun := false, adm := .normal, twinAdm := .normal, takenOver := false, hot := false, capAlarm := false,
    diverged := false, nMin := 0 }

/-! ## The transport -/

/-- A packet sent and not yet acknowledged (R364): its SEQ, the sealed packet, body bytes, times sent, when last, timeout in ns, whether a SACK
covers it, whether it is to be sent again as soon as the pacer lets it go. -/
structure SentPkt where
  seq    : Nat
  pkt    : AstPkt
  bytes  : Nat
  sends  : Nat
  sentAt : Word64
  rto    : Nat
  sacked : Bool
  due    : Bool
deriving DecidableEq, Repr

/-- An OPEN forwarded and not answered (R336, R370), with its inline prompt tokens. -/
structure WaitingOpen where
  req    : FwdOpen
  tokens : List Word32
deriving DecidableEq, Repr

/-- A capture being returned in BULK chunks (R380): tensor, the stroke asked for and taken, its data once captured, bytes sent. -/
structure BulkJob where
  tensor : BitVec 24
  asked  : Stroke
  taken  : Option Stroke
  data   : List Byte
  sent   : Nat
  lastSeq : Option Nat
deriving DecidableEq, Repr

/-- A live endpoint (R354, R362 to R366, R383): client identity, keys, CONN, current address, pacing rate, in-order point of the
client's direction and packets held beyond it, the client's LOW, the next SEQ to seal and the packets unacknowledged, messages waiting
behind the pacer, round-trip figures in ns, pacer tokens in bytes and when they were counted, the client's window in bytes,
retransmissions and abandonments, OPENs awaiting decision, its DUMP or SNAPSHOT, an acknowledgement due since, RESUME pending; `th` is the TH of
its handshake (R356, Table 20.8). -/
structure Endpoint where
  client    : BitVec 512
  th        : BitVec 512
  keyIn     : BitVec 256
  keyOut    : BitVec 256
  conn      : BitVec 32
  addr      : NetAddr
  pace      : Nat
  rxPoint   : Nat
  rxHeld    : List AstPkt
  txNext    : Nat
  unacked   : List SentPkt
  pacedq    : List Msg
  srtt      : Option Nat
  rttvar    : Nat
  bucket    : Nat
  bucketAt  : Word64
  window    : Nat
  retrans   : Nat
  abandoned : Nat
  opens     : List WaitingOpen
  bulk      : Option BulkJob
  ackDue    : Option Word64
  resume    : Bool
deriving DecidableEq, Repr

/-- A handshake in progress (R355, R356): CONN, the endpoint number reserved, PACE, REPLACE, client key, the client's address, the
shared secret, TH and the device signature of its HELLO_D, and when that was sent. -/
structure Handshake where
  conn    : BitVec 32
  number  : Nat
  pace    : Nat
  replace : BitVec 8
  pubKey  : BitVec 20736
  src     : NetAddr
  secret  : BitVec 256
  th      : BitVec 512
  sig     : BitVec 37016
  hello   : HelloD
  at_     : Word64
deriving DecidableEq, Repr

/-- The module's association with the shared store, as AST client (R432): idle, HELLO_C sent, live; its CONN and ephemeral key, the
endpoint the store gave, keys, the next SEQ, the parts of proof objects put and not answered (stroke, and whether it is
the job's part), the GETs outstanding by NAME. -/
structure StoreLink where
  phase    : Nat
  conn     : BitVec 32
  ekey     : Nat
  nonce    : BitVec 256
  number   : BitVec 8
  keyOut   : BitVec 256
  keyIn    : BitVec 256
  txNext   : Nat
  putting  : List (Stroke × Bool)
  getting  : List (BitVec 64)
deriving DecidableEq, Repr

/-- Transport state: endpoints by number (R354), handshakes, whether handshakes are accepted (R404 step 4), host link up, the link to
the store. -/
structure TransState where
  eps        : SMap Endpoint
  handshakes : List Handshake
  accepting  : Bool
  linkUp     : Bool
  store      : StoreLink
deriving DecidableEq, Repr

/-- Transport state after reset. -/
def TransState.reset : TransState :=
  { eps := [], handshakes := [], accepting := false, linkUp := false,
    store := ⟨0, 0#32, 0, 0#256, 0#8, 0#256, 0#256, 0, [], []⟩ }

/-- Sessions by order of admission, exclusions, carried rows, and the twin's sessions as their committed proofs and tokens show them here (R421,
R425, R429). -/
structure SessState where
  list    : List Session
  nextOrd : Nat
  excls   : List ExclSpan
  carried : List CarriedRow
  shadow  : List Session
deriving DecidableEq, Repr

/-- No session. -/
def SessState.reset : SessState := ⟨[], 0, [], [], []⟩

end Sys2Proof.Machine
end

