-- ==== Sys2Proof/Machine/BootState.lean ====
section
/-! DEFINITION. BootState.lean: the state of the configuration flash, the bulk flash and start (spec/15), of the twin pair and its
proofs (spec/16), and of the tuning job (spec/17). -/
namespace Sys2Proof.Machine

/-! ## Flash and start -/

/-- A boot record copy whose CRC matches (Table 15.2). -/
structure BootRec where
  active   : BitVec 8
  pending  : Bool
  floor    : BitVec 64
  lastFail : BitVec 8
  lastSlot : BitVec 8
  count    : BitVec 32
deriving DecidableEq, Repr

/-- A health record entry (Table 15.3). -/
structure HealthEntry where
  ft    : BitVec 64
  kind  : BitVec 4
  stack : BitVec 5
  subch : BitVec 6
  bank  : BitVec 4
  row   : BitVec 16
deriving DecidableEq, Repr

/-- An object in bulk flash: its name, its plaintext, and the binding epoch under whose flash key it lies (R408, R505, R512). -/
structure FlashObj where
  name  : BitVec 64
  data  : List Byte
  epoch : BitVec 16
deriving DecidableEq, Repr

/-- A session's part of a proof: its port module and its record. -/
structure ProofPart where
  port   : BitVec 10
  record : SessionRec
deriving DecidableEq, Repr

/-- A committed proof kept at layer 2 or 3, or job proof at layers 1 to 3 (R431, R456): layer, instance (0xFFFF: the job), stroke or
job step, its parts, the binding epoch it is sealed under. -/
structure StoredProof where
  layer : Nat
  inst  : BitVec 16
  point : BitVec 48
  parts : List ProofPart
  bytes : List (GAddr × List Byte)
  epoch : BitVec 16
deriving DecidableEq, Repr

/-- Where the module stands (R404, R413, R482, R439, R495). -/
inductive Standing where
  | auxOnly
  | starting
  | serving
  | heldDark
  | heldVisible
  | teardown
  | detached
deriving DecidableEq, Repr

/-- The VALIDATE entries of an instance as its lead module runs them (R410): the entry's place among those of the instance, and its session's
handle once it has been admitted. -/
structure ValidRun where
  entry  : Nat
  handle : Option (BitVec 32)
deriving DecidableEq, Repr

/-- Start state: the two boot record copies, the health record, the two plate slots (none: erased), bulk flash, stored proofs; the
plate in effect and its slot, whether a pending plate has already fallen back in this start (R415), the standing, the step of Table 15.19
and the STATUS code; when START_TIMEOUT began (time since auxiliary start, ns); memory trained, ports trained,
directory final, objects still missing, object digests, LOADED sent, validation progress by instance, instances passed, and whether a
SERVING record takes effect at the next boundary. -/
structure BootState where
  rec0      : Option BootRec
  rec1      : Option BootRec
  health    : List HealthEntry
  slot0     : Option Plate
  slot1     : Option Plate
  flash     : List FlashObj
  proofs    : List StoredProof
  plate     : Option Plate
  slot      : Nat
  fellBack  : Bool
  standing  : Standing
  step      : Nat
  code      : BitVec 8
  startAt   : Word64
  trained   : Bool
  joinedAll : Bool
  dirFinal  : Bool
  missing   : List Nat
  digests   : List (BitVec 512)
  loaded    : Bool
  valid     : SMap ValidRun
  passed    : List (BitVec 16)
  servingAt : Option Stroke
deriving DecidableEq, Repr

/-- Start state of a module as manufactured: records unwritten, slots erased. -/
def BootState.reset : BootState :=
  { rec0 := none, rec1 := none, health := [], slot0 := none, slot1 := none, flash := [], proofs := [], plate := none, slot := 0,
    fellBack := false, standing := .auxOnly, step := 0, code := 0#8, startAt := 0#64, trained := false, joinedAll := false,
    dirFinal := false, missing := [], digests := [], loaded := false, valid := [], passed := [], servingAt := none }

/-! ## The twin pair and proofs -/

/-- The pair states of Table 16.3. -/
inductive PairPhase where
  | unpaired
  | paired
  | holding
  | catchingUp
deriving DecidableEq, Repr

/-- An item of landing data (R428): proof granules at a global address, or session records, of a stroke and instance. -/
inductive LandItem where
  | data (stroke : Stroke) (inst : BitVec 16) (addr : GAddr) (gs : List Granule)
  | recs (stroke : Stroke) (inst : BitVec 16) (rs : List SessionRec)
deriving DecidableEq, Repr

/-- A capture of a DPROOF or of a job proof (R427, R428, R456): its layer, instance (0xFFFF: the job), stroke or step, the stroke of the capture, the addresses
still to be copied, what has been copied, the sessions' records with their next marks, and whether its DPROOF has completed. -/
structure Capture where
  layer  : Nat
  inst   : BitVec 16
  point  : BitVec 48
  stroke : Stroke
  left   : List GAddr
  copied : List (GAddr × List Byte)
  recs   : List ProofPart
  closed : Bool
deriving DecidableEq, Repr

/-- A commit sent and not answered by every twin module (R429). -/
structure OpenCommit where
  stroke : Stroke
  inst   : BitVec 16
  count  : BitVec 32
deriving DecidableEq, Repr

/-- A takeover in progress (Table 16.8): instances, stroke F of detection, the boundary k at which it takes effect, whether this
module is on the failing side, and whether step 3 has run. -/
structure TakeoverState where
  insts    : List (BitVec 16)
  detected : Stroke
  at_      : Stroke
  failing  : Bool
  entered  : Bool
deriving DecidableEq, Repr

/-- A planned handover (R438, R439): instance, stroke h, and whether this module hands over or takes back. -/
structure HandoverState where
  inst   : BitVec 16
  h      : Stroke
  giving : Bool
deriving DecidableEq, Repr

/-- Pairing, landing and takeover state: the pair state, PAIR_ACK sent and received, the twin's last STATE (FT difference in ns, lag,
its module state and pair state), twin time divergence (R45), landing items and job shadow items not committed, captures, commits
awaiting COMMITTED, the modules that have told this lead that their layer-1 proofs of a stroke and instance are complete (R429), takeovers and handovers, instances held for the twin, instances that the twin holds, the stroke at which SUCCESSION takes effect and its new
manager, how far a detach has gone (R439), whether the twin has lost proofs of this module that are not yet committed anew (Table 16.9). -/
structure TwinState where
  phase     : PairPhase
  ackSent   : Bool
  ackGot    : Bool
  twinDiff  : Int
  twinLag   : BitVec 32
  twinMod   : BitVec 2
  twinPair  : BitVec 2
  diverged  : Bool
  landing   : List LandItem
  captures  : List Capture
  commits   : List OpenCommit
  takeovers : List TakeoverState
  handovers : List HandoverState
  holding   : List (BitVec 16)
  away      : List (BitVec 16)
  proofDone : List (BitVec 10 × Stroke × BitVec 16)
  succAt    : Option (Stroke × BitVec 10)
  detaching : Bool
  detachReq : Bool
  reproving : Bool
deriving DecidableEq, Repr

/-- Twin state after reset. -/
def TwinState.reset : TwinState :=
  { phase := .unpaired, ackSent := false, ackGot := false, twinDiff := 0, twinLag := 0#32, twinMod := 0#2, twinPair := 0#2,
    diverged := false, landing := [], captures := [], commits := [], takeovers := [], handovers := [], holding := [], away := [],
    proofDone := [], succAt := none, detaching := false, detachReq := false, reproving := false }

/-! ## The tuning job -/

/-- What the job is doing (R447, R458, R459). -/
inductive JobPhase where
  | off
  | running
  | between
  | waiting
  | done
deriving DecidableEq, Repr

/-- The job: its phase, the step released, the stroke of that release, the job proofs due or taken and not committed and those
committed, each with its layer and step (R456, R457), and the step whose layer-1 proof has been asked back of the twin, with whether all of it has
come (R459). -/
structure JobState where
  phase     : JobPhase
  step      : Nat
  released  : Stroke
  open_     : List (Nat × Nat)
  committed : List (Nat × Nat)
  fetch     : Option (Nat × Bool)
deriving DecidableEq, Repr

/-- No job. -/
def JobState.reset : JobState := ⟨.off, 0, 0#48, [], [], none⟩

end Sys2Proof.Machine
end

