-- ==== Sys2Proof/Machine/Stack.lean ====
section
/-! DEFINITION. Stack.lean: the memory stacks of spec/09 as functions on plain data: the burst layout and its check code (R218 to
R222), the interleave and the relocation of a mapped-out subchannel (R215, R216, R223, R238), and subchannel ownership (R20). -/
namespace Sys2Proof.Machine

/-! ## The variant's counts (Table 1.4, R20) -/

/-- The part number (R1, R5). -/
inductive Variant where
  | a16
  | m12
  | n12
deriving DecidableEq, Repr

/-- Compute dies and partitions. -/
def Variant.parts (v : Variant) : Nat :=
  match v with
  | .a16 => 16
  | _ => 12

/-- Memory stacks. -/
def Variant.stacks (v : Variant) : Nat :=
  match v with
  | .m12 => 16
  | _ => 12

/-- Subchannels per partition. -/
def Variant.subs (v : Variant) : Nat :=
  match v with
  | .a16 => 36
  | .m12 => 64
  | .n12 => 48

/-- Link dies. -/
def Variant.linkDies (v : Variant) : Nat :=
  match v with
  | .n12 => 8
  | _ => 4

/-- Fabric ports: four per link die (R17). -/
def Variant.ports (v : Variant) : Nat := 4 * v.linkDies

/-! ## Sites and die codes (R12, R13, R26, Tables 1.1, 1.5) -/

/-- Die code of a compute die, a memory stack and a link die (Table 1.5). -/
def computeDie (n : Nat) : Nat := n
def stackDie (n : Nat) : Nat := 0x20 + n
def linkDieCode (n : Nat) : Nat := 0x40 + n

/-- Band and column of a site: site number = 8 × band + column (R12). -/
def siteBand (site : Nat) : Nat := site / 8
def siteColumn (site : Nat) : Nat := site % 8

/-- The die code of column i of band q (Table 1.1). -/
def Variant.column (v : Variant) (q i : Nat) : Nat :=
  if i = 0 then linkDieCode q
  else match v with
    | .a16 => if i % 2 = 1 then computeDie (4 * q + i / 2) else stackDie (3 * q + i / 2 - 1)
    | .m12 => if i % 2 = 1 then stackDie (4 * q + i / 2) else computeDie (3 * q + i / 2 - 1)
    | .n12 => if i = 7 then linkDieCode (q + 4) else if i % 2 = 1 then computeDie (3 * q + i / 2) else stackDie (3 * q + i / 2 - 1)

/-- The die code of the die that a site holds (Table 1.2). No site is empty. -/
def Variant.siteDie (v : Variant) (site : Nat) : Nat := v.column (siteBand site) (siteColumn site)

/-- A twin port (R18)? -/
def Variant.isTwinPort (v : Variant) (p : Nat) : Bool :=
  match v with
  | .n12 => p = 30 || p = 31
  | _ => p = 15

/-- VARIANT of a module entry (Table 15.9). -/
def Variant.code (v : Variant) : Nat :=
  match v with
  | .a16 => 0
  | .m12 => 1
  | .n12 => 2

/-- Global subchannel index of local subchannel j of partition p (R20). -/
def subGlobal (v : Variant) (p j : Nat) : Nat := v.subs * p + j

/-- The partition that owns a global subchannel, and its local number there (R20). -/
def subOwner (v : Variant) (g : Nat) : Nat × Nat := (g / v.subs, g % v.subs)

/-- The stack of a global subchannel and the subchannel's number in it (R20). -/
def subStack (g : Nat) : Nat × Nat := (g / 48, g % 48)

/-- The partitions that own subchannels of a stack: those its thermal events affect (R23, Table 1.3). -/
def stackParts (v : Variant) (s : Nat) : List Nat :=
  (List.range v.parts).filter fun p => (List.range 48).any fun c => (subOwner v (48 * s + c)).1 = p

/-! ## Bursts -/

/-- One step of CRC-8 (x^8 + x^2 + x + 1) on a bit, most significant bit first (R219). -/
def crcStep (crc : Nat) (bit : Bool) : Nat :=
  let top := (crc / 128) % 2 = 1
  let sh := (crc * 2) % 256
  if top != bit then sh ^^^ 7 else sh

/-- CRC-8 of a byte string, each byte most significant bit first (R219). -/
def crc8 (bs : List Byte) : Nat :=
  bs.foldl (fun c b => (List.range 8).foldl (fun c i => crcStep c (b.getLsbD (7 - i))) c) 0

/-- Bit position, 12 × beat + lane, of data bit i (Table 9.3). -/
def dataPos (i : Nat) : Nat := if i < 240 then 12 * (i / 10) + i % 10 else 12 * (i - 240) + 10

/-- Bit position of CRC bit k (Table 9.3). -/
def crcPos (k : Nat) : Nat := 12 * (16 + k) + 10

/-- Lanes 0 to 10 of a burst that carries 32 data bytes. -/
def burstBody (bs : List Byte) : Nat :=
  let v := leNat bs
  let c := crc8 bs
  let d := (List.range 256).foldl (fun acc i => if v.testBit i then acc ||| 1 <<< dataPos i else acc) 0
  (List.range 8).foldl (fun acc k => if c.testBit k then acc ||| 1 <<< crcPos k else acc) d

/-- Exclusive-or of the lanes of a beat that a mask selects. -/
def beatParity (burst beat mask : Nat) : Bool :=
  (List.range 12).foldl (fun p l => if mask.testBit l && burst.testBit (12 * beat + l) then !p else p) false

/-- The stored burst of 32 data bytes: parity on lane 11 (R219). -/
def encodeBurst (bs : List Byte) : Nat :=
  let b := burstBody bs
  (List.range 24).foldl (fun acc t => if beatParity b t 0x7FF then acc ||| 1 <<< (12 * t + 11) else acc) b

/-- The data bytes that a burst carries. -/
def burstData (burst : Nat) : List Byte :=
  leBytes 32 ((List.range 256).foldl (fun acc i => if burst.testBit (dataPos i) then acc ||| 1 <<< i else acc) 0)

/-- The CRC that a burst carries. -/
def burstCrc (burst : Nat) : Nat :=
  (List.range 8).foldl (fun acc k => if burst.testBit (crcPos k) then acc ||| 1 <<< k else acc) 0

/-- A burst's syndrome is zero (R219). -/
def syndromeZero (burst : Nat) : Bool := (List.range 24).all fun t => !beatParity burst t 0xFFF

/-- A burst's CRC matches its data. -/
def crcOk (burst : Nat) : Bool := crc8 (burstData burst) = burstCrc burst

/-- Lane m rebuilt as the exclusive-or of the other eleven lanes at each beat (R220). -/
def rebuildLane (burst m : Nat) : Nat :=
  (List.range 24).foldl (fun acc t =>
    let p := 12 * t + m
    let bit := beatParity burst t (0xFFF - 1 <<< m)
    if acc.testBit p = bit then acc else acc ^^^ 1 <<< p) burst

/-- What the controller does with one burst (R220, Table 9.4). -/
inductive BurstResult where
  | clean (data : List Byte)
  | corrected (data : List Byte)
  | transient (data : List Byte)
  | marks (lane : Nat) (data : Option (List Byte))
  | rowFault
  | lost
  | bad
deriving DecidableEq, Repr

/-- A burst read with a marked lane (R220): its data, and whether the lane changed. -/
def readMarked (burst m : Nat) : Option (List Byte × Bool) :=
  let r := rebuildLane burst m
  if crcOk r then some (burstData r, r != burst) else none

/-- The lanes, in ascending order, that a mask names. -/
def lanesOf (mask : Nat) : List Nat := (List.range 12).filter fun l => mask.testBit l

/-- The lanes that fail a lane check: those that differ from the pattern in at least two of its four reads, each given as the mask of the lanes that
differ in it (R221). -/
def laneVote (reads : List (BitVec 12)) : Nat :=
  ((List.range 12).filter fun l => 2 ≤ (reads.take 4).countP fun r => r.getLsbD l).foldl (fun m l => m + 2 ^ l) 0

/-- The sequence of R220 on one burst. Which of the two reads is rebuilt once the lane check has marked one lane is not said; the second is
(notes/assumptions/66): what the first and second reads flip, and the lanes a lane check finds failing. -/
def readBurst (marked : Option Nat) (data : List Byte) (first second lanes : Nat) : BurstResult :=
  let w := encodeBurst data
  let r1 := w ^^^ first
  match marked with
  | some m =>
    match readMarked r1 m with
    | some (d, true) => .corrected d
    | some (d, false) => .clean d
    | none => .bad
  | none =>
    if syndromeZero r1 && crcOk r1 then .clean (burstData r1)
    else
      let r2 := w ^^^ second
      if syndromeZero r2 && crcOk r2 then .transient (burstData r2)
      else match lanesOf lanes with
        | [] => .rowFault
        | [m] => .marks m ((readMarked r2 m).map (·.1))
        | _ => .lost

/-! ## Interleave and relocation -/

/-- Granules of data in a subchannel (Table 9.1). -/
def subGranules : Nat := 13021184

/-- A place in a module's stacks: partition, local subchannel and subchannel offset. -/
structure Place where
  part : Nat
  sub  : Nat
  off  : Nat
deriving DecidableEq, Repr

/-- The members of a spread in ascending partition number (R223). -/
def Spread.members (sp : Spread) : List Nat := (List.range 16).filter fun p => sp.parts.toNat.testBit p

/-- Is a frame inside a spread? -/
def Spread.holds (sp : Spread) (frame : Nat) : Bool :=
  sp.frameBase.toNat ≤ frame && frame < sp.frameBase.toNat + sp.frameCount.toNat

/-- The place of granule g of a frame in its spread, before any map-out (R223). -/
def Spread.place (sp : Spread) (n frame g : Nat) : Place :=
  let q := sp.members
  let y := (frame - sp.frameBase.toNat) * 16384 + g
  { part := (q[(y / n) % q.length]?).getD 0, sub := y % n, off := sp.offsetBase.toNat + y / (n * q.length) }

/-- P_k of R238: the first offset of the patch range of the k-th map-out. -/
def patchBase (n : Nat) : Nat → Nat
  | 0 => subGranules
  | k + 1 => patchBase n k - (subGranules + (n - (k + 1)) - 1) / (n - (k + 1))

/-- The relocation of one granule of the k-th mapped-out subchannel (R238); `out` lists those mapped out so far, this one last. -/
def relocate (n : Nat) (out : List Nat) (k o : Nat) : Nat × Nat :=
  let rest := (List.range n).filter fun j => !(out.take k).contains j
  ((rest[o % (n - k)]?).getD 0, patchBase n k + o / (n - k))

/-- The place whose granule a place holds once the subchannels of `out` have been copied away, in order of map-out: itself below their patch ranges, else
the granule that R238 relocates to it; none where no granule is. -/
def origin (n : Nat) (out : List Nat) : Nat → Nat × Nat → Option (Nat × Nat)
  | 0, _ => none
  | fuel + 1, p =>
    match (List.range out.length).find? fun i => patchBase n (i + 1) ≤ p.2 && p.2 < patchBase n i with
    | none => some p
    | some i =>
      let k := i + 1
      let rest := (List.range n).filter fun j => !(out.take k).contains j
      match rest.idxOf? p.1, out[i]? with
      | some j, some s =>
        let o := (p.2 - patchBase n k) * (n - k) + j
        if o < subGranules then origin n out fuel (s, o) else none
      | _, _ => none

/-- The frame and granule at a place of a spread before any map-out: the inverse of R223. -/
def Spread.granuleAt (sp : Spread) (n : Nat) (pl : Place) : Option (Nat × Nat) :=
  match sp.members.idxOf? pl.part with
  | some j =>
    if pl.off < sp.offsetBase.toNat then none
    else
      let y := ((pl.off - sp.offsetBase.toNat) * sp.members.length + j) * n + pl.sub
      let f := sp.frameBase.toNat + y / 16384
      if sp.holds f then some (f, y % 16384) else none
  | none => none

/-- A granule's place after the map-outs of its partition whose copies have passed it: `out` in order of map-out, `done k o` whether
granule o of the k-th is served at its patch location. At most four steps (R238). -/
def chase (n : Nat) (out : List Nat) (moved : Nat → Nat → Bool) : Nat → Nat × Nat → Nat × Nat
  | 0, p => p
  | fuel + 1, p =>
    match out.idxOf? p.1 with
    | some i => if moved i p.2 then chase n out moved fuel (relocate n out (i + 1) p.2) else p
    | none => p

/-- Is a frame vacated by the map-outs of a partition of its spread (R238)? -/
def vacatedBy (n : Nat) (sp : Spread) (outs : Nat → Nat) (frame : Nat) : Bool :=
  (List.range 16384).any fun g =>
    let p := sp.place n frame g
    p.off ≥ patchBase n (outs p.part)

/-- ROW, BANK and COLUMN of a subchannel offset (Table 9.2). -/
def rowBankCol (o : Nat) : Nat × Nat × Nat := (bitsOf o 23 8, bitsOf o 7 4, bitsOf o 3 0)

end Sys2Proof.Machine
end

