-- ==== Sys2Proof/Machine/MemState.lean ====
section
/-! DEFINITION. MemState.lean: the state of the module's stacks, of the home directory and migration, and of the fabric ports
(spec/09, spec/10, spec/12). -/
namespace Sys2Proof.Machine

/-- A bank's repair state (R232 to R235): the row its stand-in serves, whether its spare row is used, the rows repaired. -/
structure BankState where
  standIn   : Option Nat
  spareUsed : Bool
  repaired  : Option Nat
deriving DecidableEq, Repr

/-- A subchannel (R219 to R236): the marked lane, refresh commands postponed (R227), its refresh interval in ns and burst cap in percent of the slots
(R228), when it was last refreshed and retrained (R231), the transient detections (row and FT), the banks with repair state by number (unlisted: no
repair). -/
structure SubState where
  marked     : Option (BitVec 4)
  postponed  : Nat
  refreshNs  : Nat
  burstCap   : Nat
  refreshed  : Word64
  retrained  : Word64
  transients : List (Nat × Word64)
  banks      : SMap BankState
deriving DecidableEq, Repr

/-- A subchannel after reset. -/
def SubState.zero : SubState := ⟨none, 0, 3904, 100, 0#64, 0#64, [], []⟩

/-- A memory stack (R228): its temperature band and its temperature in °C at the last reading. -/
structure StackState where
  band    : Nat
  celsius : Int
deriving DecidableEq, Repr

/-- A migration as this module knows it (R260, R266): the block, the homes and frames, whether it is frozen yet, the granules
transferred, whether the transfer is complete, whether the switch has taken effect, whether the queue has come before it, and whether its
cancel waits to be broadcast. -/
structure Migration where
  block    : Nat
  oldMod   : BitVec 10
  oldFrame : BitVec 20
  newMod   : BitVec 10
  newFrame : BitVec 20
  frozenAt : Stroke
  moved    : Nat
  run      : BitVec 12
  complete : Bool
  switched : Bool
  through  : Bool
  doomed   : Bool
deriving DecidableEq, Repr

/-- A record of a broadcast: a directory update or a link-state change (R251, R295). -/
inductive BatchRec where
  | dir (u : DirUpdate)
  | link (c : LinkState)
deriving DecidableEq, Repr

/-- A broadcast batch (R251): its sequence number, the stroke at whose start it takes effect, its records. -/
structure Batch where
  seq    : BitVec 32
  stroke : Stroke
  recs   : List BatchRec
deriving DecidableEq, Repr

/-- Why a request waits at its home (R302): the freeze queue or the touch buffer is full, the block is held, its switch is not through, a copy of a
granule it names is in flight (R240), or a request before it of the same requester waits (R261). -/
inductive WaitWhy where
  | freezeFull
  | held
  | switching
  | touchFull
  | copying
  | behind
deriving DecidableEq, Repr

/-- A request waiting at its home; `port` the physical port it arrived on, none for one of this module's own DEs; `inBuf`: the wait store had
no entry for it and it still holds its VC1 credits (R302); when it began to wait, on the module's clock (R309). -/
structure Waiting where
  port  : Option Nat
  pkt   : Packet
  why   : WaitWhy
  inBuf : Bool
  since : Word64
deriving DecidableEq, Repr

/-- The link die that a waiting request came by. -/
def Waiting.ld (w : Waiting) : Option Nat := w.port.map (· / 4)

/-- Granules of a planned transfer received so far (R306). -/
structure PlanCount where
  src    : BitVec 10
  plan   : BitVec 16
  stroke : Stroke
  count  : Nat
deriving DecidableEq, Repr

/-- Memory, directory and migration state of the module. `nextBatch`, `gotBatch`: the next batch to apply and those that wait; `sentBatch`,
`unacked`, `nextSend`: the batches broadcast, by whom they are unacknowledged, the next number (R251); `wanted`, `linkNews`: blocks that wait
to migrate and link-state changes that wait for the close, at the manager (R239, R263, R295); `lastMoved`: stroke of a block's last
switch; `retrainAt`: the rotation of R231; `errs`: errors that stand in the stacks until a read meets them (R220); `lost`: subchannels lost, whose device reset is due (R241);
`scrubBad`: blocks that patrol scrub has reported to the MC (R245);
`sigWait`: signals of transfers that found their partition's early-signal buffer full (R78). `mem`: stack contents keyed frame × 2^21 + offset, an unlisted byte reads
zero (R404 step 4); `auth`: the authoritative directory, entry by block (manager only, R249); `fenced`, `held`: blocks (R244, R471);
`lates`: planned
transfers whose slot passed unsent (R54), with their stroke. -/
structure MemState where
  mem       : Memory
  subs      : SMap SubState
  stackSt   : SMap StackState
  auth      : SMap (BitVec 32)
  formed    : Bool
  fenced    : List Nat
  held      : List Nat
  migs      : List Migration
  freezeQ   : List FreezeEntry
  waits     : List Waiting
  touch     : SMap Granule
  protect   : List Nat
  nextBatch : BitVec 32
  gotBatch  : List Batch
  sentBatch : List Batch
  unacked   : List (BitVec 32 × BitVec 10)
  nextSend  : BitVec 32
  wanted    : List Nat
  linkNews  : List LinkState
  lastMoved : SMap Stroke
  planned   : List PlanCount
  lates     : List (Nat × Stroke)
  retrainAt : Nat
  errs      : List MemErr
  lost      : List Nat
  sigWait   : List (Nat × Signal)
  scrubBad  : List Nat
deriving DecidableEq, Repr

/-- Memory state after reset. -/
def MemState.reset : MemState :=
  { mem := [], subs := [], stackSt := [], auth := [], formed := false, fenced := [], held := [], migs := [], freezeQ := [],
    waits := [], touch := [], protect := [], nextBatch := 0#32, gotBatch := [], sentBatch := [], unacked := [],
    nextSend := 0#32, wanted := [], linkNews := [], lastMoved := [], planned := [], lates := [], retrainAt := 0, errs := [], lost := [], sigWait := [], scrubBad := [] }

/-- The training states of a port (Table 12.9); `down` is a port that is not up and not training. -/
inductive PortPhase where
  | down
  | detect
  | equalise
  | align
  | check
  | delay
  | key
  | up
deriving DecidableEq, Repr

/-- A packet in a replay buffer: its LSEQ, the packet, how often it has been replayed in a row (R312). -/
structure Replay where
  lseq    : BitVec 12
  pkt     : Packet
  replays : Nat
deriving DecidableEq, Repr

/-- A link key exchange in progress or not yet in use (R319, R519): the free-value counter of the ephemeral key at the offering end, the
record hash, the keys it gives for the direction away from here and towards here once known, and whether the exchange is complete. -/
structure LinkExch where
  counter : Nat
  offer   : LinkOffer
  hash    : BitVec 512
  keys    : Option (BitVec 256 × BitVec 256)
  sealed  : Bool
deriving DecidableEq, Repr

/-- A physical fabric port (R289, R300, R310 to R320): phase, when its current phase began and whether it was UP before this training;
width, lanes in use, lanes dropped as degraded, lanes inverted, delay in ns; the next LSEQ to send and the last received in order; the replay
buffer; 32 B units that the far end has freed, that were sent, and that were freed here, cumulative by VC × 8 + hop class (R300, R311); whether the far end's VC0
transfer of its slot has ended; the keys of the two directions, when they came into use and packets sent under them, an exchange; FTs of
tag failures in the last second; held down until the next start; the reserved slot whose VC0 transfer this port has ended last (R304). -/
structure PortState where
  phase     : PortPhase
  phaseAt   : Word64
  wasUp     : Bool
  width     : Nat
  lanes     : BitVec 4
  dropped   : BitVec 4
  inverted  : BitVec 4
  delayNs   : Nat
  txSeq     : BitVec 12
  rxSeq     : BitVec 12
  replay    : List Replay
  granted   : SMap Nat
  used      : SMap Nat
  given     : SMap Nat
  slotEnded : Bool
  keyOut    : Option (BitVec 256)
  keyIn     : Option (BitVec 256)
  keyAt     : Word64
  keyCount  : Nat
  exch      : Option LinkExch
  tagFails  : List Word64
  heldDown  : Bool
  slotDone  : Option (Stroke × Nat)
deriving DecidableEq, Repr

/-- A port after reset: down, untrained. -/
def PortState.reset : PortState :=
  { phase := .down, phaseAt := 0#64, wasUp := false, width := 0, lanes := 0#4, dropped := 0#4, inverted := 0#4, delayNs := 0,
    txSeq := 0#12, rxSeq := 0xFFF#12, replay := [], granted := [], used := [], given := [], slotEnded := true, keyOut := none,
    keyIn := none, keyAt := 0#64, keyCount := 0, exch := none, tagFails := [], heldDown := false, slotDone := none }

/-- A link-state entry (Table 12.1). -/
structure LinkEntry where
  state : BitVec 2
  width : BitVec 2
  slots : Bool
deriving DecidableEq, Repr

/-- The reset value of a link-state entry: down. -/
def LinkEntry.zero : LinkEntry := ⟨0#2, 0#2, false⟩

/-- A packet in this module's buffers on its way: the port it is to leave by, the packet, the port it came by with the packet as it came, whose receive
buffer it occupies until it leaves (R301; none for one of the module itself or of VC0), and since when it waits on the module's clock (R309). -/
structure Transit where
  port  : Nat
  pkt   : Packet
  inb   : Option (Nat × Packet)
  since : Word64
deriving DecidableEq, Repr

/-- Fabric state: physical ports, the link-state table keyed 32 × module + logical port (R295), the packets of planned transfers held
between hops in the VC0 buffers of the link dies (R303), and packets that wait for credits, replay room or the end of a slot, oldest first (R300,
R304). -/
structure FabricState where
  ports   : Vector PortState 32
  links   : SMap LinkEntry
  vc0     : List Transit
  waiting : List Transit
deriving DecidableEq, Repr

/-- Fabric state after reset. -/
def FabricState.reset : FabricState := ⟨Vector.replicate 32 .reset, [], [], []⟩

end Sys2Proof.Machine
end

