-- ==== Sys2Proof/Machine/SysState.lean ====
section
/-! DEFINITION. SysState.lean: the state of the module as a whole: its label, time and strokes (spec/02, spec/03), power and the
auxiliary domain (spec/19, spec/22), protection (spec/20) and observation (spec/21). -/
namespace Sys2Proof.Machine

/-! ## What is fixed at manufacture -/

/-- The module's fixed data (R5, R561, R499, Table 20.8): variant, serial, revision, host MAC, the identity hash, the endorsement,
the ROM version, the Plovdo key of ROM, site codes and steppings, and the key pair's public part per epoch is a free function. -/
structure LabelState where
  variant  : Variant
  serial   : BitVec 64
  revision : BitVec 16
  mac      : BitVec 48
  identity : BitVec 512
  endorse  : BitVec 37016
  romVer   : BitVec 64
  plovdo   : BitVec 20736
  steppings : Vector (BitVec 8) 32
deriving DecidableEq, Repr

/-- The label of the modelled module: the values no rule gives are DESIGN CHOICE (notes/assumptions/4). -/
def LabelState.reset : LabelState :=
  { variant := .a16, serial := 0#64, revision := 0#16, mac := 0#48, identity := 0#512, endorse := 0#37016, romVer := 0#64,
    plovdo := 0#20736, steppings := Vector.replicate 32 0#8 }

/-- The sites in order: the die code of the die that each holds, by the variant, and the stepping that the die reports (R13, R26, R30). -/
def LabelState.sites (l : LabelState) : List (BitVec 8 × BitVec 8) :=
  (List.range 32).map fun n => (BitVec.ofNat 8 (l.variant.siteDie n), (l.steppings[n]?).getD 0#8)

/-! ## Time and strokes -/

/-- The manager's time states (Table 2.1). -/
inductive MasterState where
  | acquiring
  | locked
  | holdover
  | suspect
deriving DecidableEq, Repr

/-- The worker's alignment states (Table 2.3); `starting` until its join completes. -/
inductive WorkerState where
  | starting
  | aligned
  | offPlan
  | lost
deriving DecidableEq, Repr

/-- An accepted grandmaster's last Announce and when it came. -/
structure GmSeen where
  ann : PtpAnnounce
  at_ : Word64
deriving DecidableEq, Repr

/-- Time state (R31 to R45): the module's own clock (ns since auxiliary start) and FT (ns) once set; the manager's and worker's
states with their counts of consecutive Syncs or time messages; the grandmaster chosen and Announces seen; the path delay; the hall
offset and FT offset in ns; the slew of FT in ppb, of it the last frequency correction, which HOLDOVER and SUSPECT keep, when the delay request that awaits
its response left, and what the slew has not yet moved FT by, in 10^-9 ns; when the last Sync, Announce and time message came; when SUSPECT's
offset began to exceed 10 µs; whether the bounded slew after SUSPECT runs; when the deputy succeeded; the stroke index; the stroke of
entry to OFF-PLAN, and whether the manager has acknowledged the return. -/
structure TimeState where
  mono       : Word64
  ftSet      : Bool
  ft         : Word64
  master     : MasterState
  masterRuns : Nat
  worker     : WorkerState
  readyRuns  : Nat
  awayRuns   : Nat
  nearRuns   : Nat
  seen       : List GmSeen
  gm         : Option (BitVec 64)
  pathDelay  : Int
  lastDiff   : Int
  hallOffset : Int
  ftOffset   : Int
  slewPpb    : Int
  freqPpb    : Int
  delayReq   : Option Word64
  slewAcc    : Int
  lastSync   : Word64
  lastAnn    : Word64
  lastTime   : Word64
  timeSent   : Option Word64
  suspectAt  : Option Word64
  slewing    : Bool
  succAt     : Option Word64
  stroke     : Stroke
  offSince   : Option Stroke
  offAcked   : Bool
deriving DecidableEq, Repr

/-- Time state after reset: ACQUIRING, FT not set (Table 2.1). -/
def TimeState.reset : TimeState :=
  { mono := 0#64, ftSet := false, ft := 0#64, master := .acquiring, masterRuns := 0, worker := .starting, readyRuns := 0,
    awayRuns := 0, nearRuns := 0, seen := [], gm := none, pathDelay := 0, lastDiff := 0, hallOffset := 0, ftOffset := 0, slewPpb := 0, freqPpb := 0, delayReq := none, slewAcc := 0,
    lastSync := 0#64, lastAnn := 0#64, lastTime := 0#64, timeSent := none, suspectAt := none, slewing := false, succAt := none, stroke := 0#48,
    offSince := none, offAcked := false }

/-- Stroke unit state (R48, R55 to R65, R82, R466): the work stroke, whether its work has begun, when it completed, the last lag in ns,
whether it is a catch-up stroke, the strokes to come that are, strokes that ended with lag, how many catch-up strokes in a row have ended late, whether the slack window
is lag-free, the overrun mark, the tables of the work stroke, those of the next stroke, those built but not yet written to a batch
area, instances that failed the work stroke (R466), those whose sessions have yet to be restored here with the stroke that failed (R467),
failures told of strokes that this module has yet to run, the stroke of a teardown, the FT intervals in which a clock was stretched (apart, and none older than H strokes needs), modules whose slots are released, and those
whose slots the next boundary releases or gives back (R42). -/
structure SuState where
  work      : Stroke
  begun     : Bool
  doneAt    : Option Word64
  doneWork  : Stroke
  lag       : Nat
  catchup   : Bool
  catchAt   : List Nat
  lagged    : List Nat
  catchRun  : Nat
  lagFree   : Bool
  overrun   : Bool
  tables    : List BatchTable
  next      : List BatchTable
  written   : List (BitVec 16 × Stroke)
  failed    : List (BitVec 16)
  restore   : List (BitVec 16 × Stroke)
  doomed    : List (BitVec 16 × Stroke)
  teardown  : Option Stroke
  stretch   : List (Word64 × Word64)
  freed     : List Nat
  pendFree  : List Nat
  pendBack  : List Nat
deriving DecidableEq, Repr

/-- Stroke unit state after reset. -/
def SuState.reset : SuState :=
  { work := 0#48, begun := false, doneAt := none, doneWork := 0#48, lag := 0, catchup := false, catchAt := [], lagged := [], catchRun := 0,
    lagFree := false, overrun := false, tables := [], next := [], written := [], failed := [], restore := [], doomed := [], teardown := none, stretch := [],
    freed := [], pendFree := [], pendBack := [] }

/-! ## Power and the auxiliary domain -/

/-- An open throttle event (R496): reason, die code, when it began (FT, and 0 if FT was not set), the own clock then, its depth. -/
structure OpenThrottle where
  reason : BitVec 8
  die    : BitVec 8
  start  : Word64
  mono   : Word64
  depth  : BitVec 8
deriving DecidableEq, Repr

/-- Power state: the latest readings (10 ms averages in the units of R556), the 10 ms averages of power in 0.1 W newest first,
at most 1,000; the energy counter in mJ; power and thermal stages; open throttle events; the supply warning and since when; a droop per
die; die, stack and inlet temperatures in 0.5 °C; the compute die that first read 100 °C in the present thermal event; the trip latch: set, last die, trips since the auxiliary domain started, their times;
main rails on, main power good, auxiliary domain on; outputs off; flash claim and grant; DETACH_REFUSED; SMB_ADDR; power
readings of the FT second for tenants (R498), in 0.1 W with their count; the grid instants of the last power and die-temperature readings. -/
structure PwrState where
  now       : PowerReading
  avgs      : List Nat
  energy    : BitVec 64
  pstage    : Nat
  tstage    : Nat
  over1     : Bool
  over10    : Bool
  open_     : List OpenThrottle
  warning   : Bool
  floorAt   : Option Word64
  cd        : List Int
  ld        : List Int
  inlet     : Int
  inletHigh : Bool
  hotFirst  : Option Nat
  latch     : Bool
  tripDie   : BitVec 8
  trips     : Nat
  tripTimes : List Word64
  rails     : Bool
  good      : Bool
  aux       : Bool
  auxAt     : Word64
  outOff    : List AuxOut
  claim     : Bool
  grant     : Bool
  refused   : Bool
  smbAddr   : BitVec 3
  secPower  : Nat
  secSum    : Nat
  secCount  : Nat
  powerAt   : Option Nat
  heatAt    : Option Nat
deriving DecidableEq, Repr

/-- Power state with auxiliary power only: stages 0, counters 0. -/
def PwrState.reset : PwrState :=
  { now := ⟨0#16, 0#16, 0#16, 0#16, 0#16⟩, avgs := [], energy := 0#64, pstage := 0, tstage := 0, over1 := false,
    over10 := false, open_ := [], warning := false, floorAt := none, cd := [], ld := [], inlet := 0, inletHigh := false, hotFirst := none,
    latch := false, tripDie := 0#8, trips := 0, tripTimes := [], rails := false, good := false, aux := true,
    auxAt := 0#64, outOff := [], claim := false, grant := false, refused := false, smbAddr := 0#3, secPower := 0, secSum := 0,
    secCount := 0, powerAt := none, heatAt := none }

/-! ## Protection -/

/-- Protection state (Table 20.1) with its client list, the tenant root as opened from the module's key slot, and whether EPOCH has
been used up: a binding has ended at 1,023, after which no other is accepted (R502). -/
structure SecState where
  counter   : BitVec 64
  setup     : Setup
  clients   : List (BitVec 512)
  epoch     : BitVec 16
  seed      : BitVec 512
  root      : Option (BitVec 256)
  destroyed : Bool
  spent     : Bool
deriving DecidableEq, Repr

/-- The setup of a module at manufacture: all zero (Table 20.1). -/
def Setup.zero : Setup :=
  { operator := 0#512, tenant := 0#512, plateSigner := 0#512, members := 0#512, notAfter := 0#64, ceiling := 0#16, obsLevel := 0#2,
    linkEnc := false, epoch := 0#16, clients := 0#16, slots := 0#16, changes := 0#8, rsvd := false }

/-- Protection state at manufacture (Table 20.1). -/
def SecState.reset : SecState :=
  { counter := 0#64, setup := .zero, clients := [], epoch := 1#16, seed := 0#512, root := none, destroyed := false, spent := false }

/-! ## Observation -/

/-- The name of a cumulative counter (R523). -/
structure CtrKey where
  id     : Nat
  die    : Nat
  engine : Nat
  index  : Nat
deriving DecidableEq, Repr

/-- A counter and its value. -/
structure Ctr where
  key : CtrKey
  val : Nat
deriving DecidableEq, Repr

/-- An alarm table entry (R529). -/
structure AlarmEntry where
  space  : BitVec 8
  code   : BitVec 8
  die    : BitVec 8
  engine : BitVec 8
  detail : BitVec 32
  ft     : BitVec 64
  stroke : Stroke
  count  : Nat
deriving DecidableEq, Repr

/-- An event log entry with its sequence number (R529). -/
structure EventEntry where
  space  : BitVec 8
  code   : BitVec 8
  die    : BitVec 8
  engine : BitVec 8
  detail : BitVec 32
  ft     : BitVec 64
  stroke : Stroke
  seq    : BitVec 32
deriving DecidableEq, Repr

/-- Events logged of one (SPACE, CODE) in an FT second. -/
structure RateCount where
  space  : BitVec 8
  code   : BitVec 8
  second : Nat
  count  : Nat
deriving DecidableEq, Repr

/-- A dump waiting for or holding the dump area (R539): port module's endpoint, tensor, stroke asked; once it has taken a stroke while blocks of the
tensor are held, that stroke and the granules captured so far, none for one that has failed (R540). -/
structure DumpReq where
  ep     : BitVec 8
  tensor : BitVec 24
  stroke : Stroke
  kept   : Option (Stroke × SMap (Option (List Byte)))
deriving DecidableEq, Repr

/-- Observation state: cumulative counters (unlisted: 0), the alarm table, the event log and its sequence, rate counts; the trace
buffer oldest first, window mode's armed, triggered (records to go) or frozen state, records lost while frozen, a GAP pending in stream
mode with its first loss and count, the frame SEQ, tracing link up, a hang snapshot waiting to be sent; dumps in arrival order. -/
structure ObsState where
  ctrs     : List Ctr
  alarms   : List AlarmEntry
  reserved : List AlarmEntry
  events   : List EventEntry
  nextSeq  : BitVec 32
  rates    : List RateCount
  trace    : List TraceRec
  post     : Option Nat
  frozen   : Bool
  gap      : Option (BitVec 64 × Nat)
  frameSeq : BitVec 32
  linkUp   : Bool
  hang     : List Byte
  dumps    : List DumpReq
deriving DecidableEq, Repr

/-- Observation state after reset. -/
def ObsState.reset : ObsState :=
  { ctrs := [], alarms := [], reserved := [], events := [], nextSeq := 0#32, rates := [], trace := [], post := none, frozen := false,
    gap := none, frameSeq := 0#32, linkUp := false, hang := [], dumps := [] }

end Sys2Proof.Machine
end

