-- ==== Sys2Proof/Machine/State.lean ====
section
/-! DEFINITION. State.lean: the state of one Skelzen module, its reset value, what leaves the module, and the reasons a step can stop. -/
namespace Sys2Proof.Machine

/-- The VC3 records that modules send each other (spec/02, spec/03, spec/10, spec/13, spec/15 to spec/18). -/
inductive Mgmt where
  | offPlan (stroke : Stroke)
  | offPlanAck
  | portState (c : LinkState)
  | batch (b : Batch)
  | batchAck (seq : BitVec 32)
  | table (t : BatchTable)
  | openFwd (f : FwdOpen)
  | decision (d : DecisionRec)
  | decisionRecord (d : DecisionRec)
  | decisionAck (id : Nat)
  | alloc (r : AllocRec)
  | join (j : JoinRec)
  | joined (accepted : Bool)
  | loaded
  | serving (stroke : Stroke)
  | beat
  | failure (part : Option Nat)
  | declaredFailed (module : BitVec 10)
  | drained (port : BitVec 10) (handle : BitVec 32)
  | strokeFailed (inst : BitVec 16) (stroke : Stroke)
  | transferDone (block : BitVec 32)
  | freezeQueue (block : BitVec 32) (entries : List FreezeEntry) (fenced : Bool) (prot : List GAddr)
  | frameFree (block : BitVec 32)
  | report (r : ModReport)
  | takeover (t : TakeoverRec)
  | handover (o : HandoverOp) (h : Stroke)
  | succession (k : Stroke) (by_ : BitVec 10)
  | commit (c : CommitRec)
  | committed (c : CommitRec)
  | relay (r : RelayRec)
  | gapClosed (slot : BitVec 15) (layer : BitVec 16) (head : BitVec 8)
  | teardown (k : Stroke)
  | resend (seq : BitVec 32)
deriving DecidableEq, Repr

/-- The TWIN packets (Table 16.2). -/
inductive TwinMsg where
  | pair (p : PairRec)
  | pairAck
  | data (stroke : Stroke) (inst : BitVec 16) (addr : GAddr) (gs : List Granule)
  | record (stroke : Stroke) (inst : BitVec 16) (rs : List SessionRec)
  | token (handle : BitVec 32) (e : RingEntry)
  | commit (c : CommitRec)
  | committed (c : CommitRec)
  | state (t : TwinStateRec)
  | relay (r : RelayRec)
  | handover (o : HandoverOp) (h : Stroke)
deriving DecidableEq, Repr

/-- The control words that a port sends (R311). -/
inductive CtlWord where
  | ack (lseq : BitVec 12)
  | nack (lseq : BitVec 12)
  | credit (vc : BitVec 2) (hop : BitVec 3) (count : BitVec 32)
  | slotEnd
  | retrain
  | keyswap
deriving DecidableEq, Repr

/-- How a packet is sealed on an encrypted link (R319): the 96-bit nonce, the encrypted header and payload, the tag. -/
structure LinkSeal where
  nonce  : BitVec 96
  cipher : List Byte
  tag    : BitVec 128
deriving DecidableEq, Repr

/-- What goes with a packet on a link: its seal where the link is encrypted, LSEQ and CRC of its trailer (Table 12.7). -/
structure LinkTail where
  sealed : Option LinkSeal
  lseq : BitVec 12
  crc  : BitVec 32
deriving DecidableEq, Repr

/-- A link key record sent (R519). -/
inductive LinkRec where
  | offer (r : LinkOffer)
  | answer (r : LinkAnswer)
  | confirm (sig : BitVec 37016)
deriving DecidableEq, Repr

/-- What the training blocks of a port carry in ALIGN (Table 12.9). -/
structure TrainBlock where
  domain   : BitVec 16
  side     : Bool
  module   : BitVec 10
  logical  : Nat
  physical : Nat
  lanes    : BitVec 4
  ports    : Nat
  encrypt  : Bool
deriving DecidableEq, Repr

/-- A message to the shared store (Table 16.7) or of the store handshake (R432). -/
inductive StoreMsg where
  | helloC (h : HelloC)
  | finish (f : Finish)
  | put (name : BitVec 64) (offset total : BitVec 64) (data : List Byte) (tag : BitVec 128)
  | get (name : BitVec 64) (offset length : BitVec 64)
deriving DecidableEq, Repr

/-- A trace frame (R533): CONTENT, SEQ and its records, or the bytes of a hang snapshot. -/
structure TraceFrame where
  dest    : BitVec 48
  content : Nat
  domain  : BitVec 16
  side    : Bool
  module  : BitVec 10
  seq     : BitVec 32
  recs    : List TraceRec
  bytes   : List Byte
deriving DecidableEq, Repr

/-- What leaves the module: the model's own record, newest first (notes/assumptions/11). -/
inductive Out where
  | packet (port : Nat) (p : Packet) (t : LinkTail)
  | ctl (port : Nat) (w : CtlWord)
  | linkKey (port : Nat) (r : LinkRec)
  | mgmt (dst : BitVec 10) (m : Mgmt)
  | timeMsg (port : Nat) (origin : BitVec 64) (correction : BitVec 56)
  | delayReq (port : Nat) (at_ : BitVec 64)
  | delayAns (port : Nat) (t : DelayStamps)
  | ptpDelayReq (gm : BitVec 64) (at_ : BitVec 64)
  | training (port : Nat) (b : TrainBlock)
  | twin (m : TwinMsg)
  | ast (p : AstPkt)
  | hello (h : HelloD)
  | reject (conn : BitVec 32) (reason : BitVec 8) (dst : NetAddr)
  | arpReply
  | ndReply
  | echoReply
  | store (m : StoreMsg)
  | sideband (bytes : List Byte)
  | smbNack
  | traceFrame (f : TraceFrame)
deriving DecidableEq, Repr

/-- The state of the module: what the spec gives it, the record of what leaves it, the counter behind free values (notes/assumptions/2)
and the queue of waiting commands, first in first out. -/
structure State where
  label   : LabelState
  time    : TimeState
  su      : SuState
  parts   : Vector Part 16
  mem     : MemState
  fab     : FabricState
  sess    : SessState
  ae      : AeState
  trans   : TransState
  boot    : BootState
  twin    : TwinState
  job     : JobState
  pwr     : PwrState
  sec     : SecState
  obs     : ObsState
  out     : List Out
  free    : Nat
  pending : List Instr
deriving DecidableEq, Repr

/-- Why a step stops with a fault. -/
inductive Fault where
  /-- A command names a partition, engine, port or stack that the module's variant does not have (R5, Table 1.4): raised by every
  meaning that such a name reaches. Safe: the hardware has no such unit, so no such command reaches it. -/
  | noSuchUnit
deriving DecidableEq, Repr

/-- Why a step is refused. -/
inductive Refusal where
  /-- The command has no meaning in this model yet: raised by Dispatch alone. Safe: the step stops. -/
  | notModelled (mnemonic : String)
deriving DecidableEq, Repr

/-- The module as manufactured with auxiliary power present and main power not good (R549, R557): every register at the value of its
structure's reset, the queue empty. -/
def State.reset : State :=
  { label := .reset, time := .reset, su := .reset, parts := Vector.replicate 16 .atReset, mem := .reset, fab := .reset, sess := .reset,
    ae := .reset, trans := .reset, boot := .reset, twin := .reset, job := .reset, pwr := .reset, sec := .reset, obs := .reset,
    out := [], free := 0, pending := [] }

end Sys2Proof.Machine
end

