-- ==== Sys2Proof/Machine/Ops.lean ====
section
/-! DEFINITION. Ops.lean: the named operations over the state that the meanings share: who the module is, time and strokes, counters,
alarms, events and trace records, partitions, semaphores and signals. -/
namespace Sys2Proof.Machine

/-! ## Outcomes -/

/-- An outcome whose next state is given. -/
abbrev Res := Host.Outcome State Fault Refusal

/-- A next state if a partition exists (Table 1.4). -/
def inPart (s : State) (p : Nat) (t : State) : Res := if p < s.label.variant.parts then .next t else .fault .noSuchUnit

/-- A next state if a fabric port exists (R17). -/
def inPort (s : State) (p : Nat) (t : State) : Res := if p < s.label.variant.ports then .next t else .fault .noSuchUnit

/-- A next state if a global subchannel exists (R20). -/
def inSub (s : State) (g : Nat) (t : State) : Res := if g < 48 * s.label.variant.stacks then .next t else .fault .noSuchUnit

/-- A next state if a link die exists (R16). -/
def inLink (s : State) (d : Nat) (t : State) : Res := if d < s.label.variant.linkDies then .next t else .fault .noSuchUnit

/-! ## What leaves the module -/

/-- Something leaves the module. -/
def State.emit (s : State) (o : Out) : State := { s with out := o :: s.out }

/-- A VC3 record sent to a module; records to the module itself travel the same way (notes/assumptions/11). A LOST module sends nothing
(R41). -/
def State.send (s : State) (dst : BitVec 10) (m : Mgmt) : State :=
  if s.time.worker = .lost then s else s.emit (.mgmt dst m)

/-- A fresh value of the free-value counter: the counter before, and the state after. -/
def State.fresh (s : State) : Nat × State := (s.free, { s with free := s.free + 1 })

/-! ## Plate values -/

/-- The DOMAIN record in effect: the plate's, or the defaults of Table 15.8 while no plate is in effect. -/
def State.domain (s : State) : DomainRec :=
  match s.boot.plate with
  | some p => p.domain
  | none =>
    { epoch := 0#64, period := 20000#32, proofWin := 0#32, slack := 0#32, slotLen := 8#16, horizon := 4#8, streamLimit := 0xFFFFFF#24,
      dirBlocksM1 := 0#32, manager := 0#10, deputy := 0#10, sizeM1 := 0#10, powerLimit := 950#16, startTimeout := 600#16,
      ptpDomain := 0#8, ptpTransport := 1#2, gmCount := 0#4, gms := [], rsvd := false }

/-- The module's entry in MODULES (R393). -/
def State.entry (s : State) : Option ModuleEntry :=
  s.boot.plate.bind fun p => p.modules.find? fun m => m.identity = s.label.identity

/-- The module ID (R29). -/
def State.me (s : State) : BitVec 10 := (s.entry.map (·.module)).getD 0#10

/-- The twin side: true is side B (R29). -/
def State.side (s : State) : Bool := (s.entry.map (·.side)).getD false

/-- Is this module the manager now in force? -/
def State.isManager (s : State) : Bool := s.ae.manager = s.me

/-- What the AE holds of a module, changed. -/
def State.modInfo (s : State) (m : BitVec 10) (f : ModInfo → ModInfo) : State :=
  { s with ae := { s.ae with mods := SMap.set s.ae.mods m.toNat (f (SMap.get s.ae.mods m.toNat .zero)) .zero } }

/-- What the manager keeps of a module's report in its record of the module: lag and overrun (R58), the capacity figure and the fewest subchannels of
a partition (R225, R327), vacated frames (R239), a stack above THERMAL_BAND (R229), time divergence of the pair (R45); a module whose twin port is
down counts as exposed (R318, R419, R420). -/
def ModInfo.heed (m : ModInfo) (r : ModReport) : ModInfo :=
  match r with
  | .lag l => { m with lag := l.lag, lagStroke := l.stroke, incomplete := l.incomplete, overrun := l.overrun }
  | .capacity _ n frames =>
    { m with nMin := if m.nMin = 0 then n else min m.nMin n, joined := m.joined.map fun j => { j with capacity := frames } }
  | .vacated fs => { m with joined := m.joined.map fun j => { j with vacated := (j.vacated ++ fs).eraseDups } }
  | .band _ _ hot => { m with hot := hot }
  | .diverged yes => { m with diverged := yes }
  | .twinPort up => { m with twinAdm := if up then .normal else .exposed }
  | _ => m

/-- This module reports to its manager: at once where it is the manager itself, else by a record (notes/assumptions/32). -/
def State.tell (s : State) (r : ModReport) : State :=
  if s.isManager then s.modInfo s.me fun m => m.heed r else s.send s.ae.manager (.report r)

/-- Is this module the deputy now in force? -/
def State.isDeputy (s : State) : Bool := s.ae.deputy = some s.me

/-- TWINNED of the admission header (Table 13.3). -/
def State.twinned (s : State) : Bool :=
  match s.boot.plate with
  | some p => p.admission.twinned = 1#8
  | none => false

/-- The modules of this side, by ID. -/
def State.modules (s : State) : List (BitVec 10) := (List.range (s.domain.sizeM1.toNat + 1)).map (BitVec.ofNat 10)

/-- The other modules of this side. -/
def State.others (s : State) : List (BitVec 10) := s.modules.filter (· ≠ s.me)

/-- A VC3 record sent to every other module of the side. -/
def State.broadcast (s : State) (m : Mgmt) : State := s.others.foldl (fun s d => s.send d m) s

/-- The record of an instance (Table 15.13). -/
def State.instRec (s : State) (inst : BitVec 16) : Option InstanceRec :=
  s.boot.plate.bind fun p => p.instances.find? fun r => r.inst = inst

/-- The modules of an instance. -/
def InstanceRec.modules (r : InstanceRec) : List (BitVec 10) :=
  (List.range (r.modCountM1.toNat + 1)).map fun k => BitVec.ofNat 10 (r.modFirst.toNat + k)

/-- The instances that run on this module, ascending. -/
def State.myInsts (s : State) : List InstanceRec :=
  match s.boot.plate with
  | none => []
  | some p => (p.instances.filter fun r => r.modules.contains s.me).insertionSort fun a b => a.inst.toNat ≤ b.inst.toNat

/-- The contract class of a number (R322). -/
def State.cclass (s : State) (c : BitVec 8) : Option ClassEntry := s.boot.plate.bind fun p => p.classes[c.toNat]?

/-- The admission record of an instance (R324). -/
def State.admRec (s : State) (inst : BitVec 16) : Option AdmRec :=
  s.boot.plate.bind fun p => p.admRecs.find? fun r => r.inst = inst

/-- The KV descriptor of a partition of this module for an instance (R186). -/
def State.kvDesc (s : State) (part : Nat) (inst : BitVec 16) : Option KvDesc :=
  s.boot.plate.bind fun p =>
    (p.kv.find? fun r => r.module = s.me && r.part.toNat = part && r.inst = inst).map (·.desc)

/-- The host port record of this module (Table 15.10). -/
def State.hostport (s : State) : Option HostPortRec :=
  s.boot.plate.bind fun p => p.hostports.find? fun r => r.module = s.me && r.side = s.side

/-- The scratchpad allocation record of a partition (R179). -/
def State.scratch (s : State) (part : Nat) : Option ScratchRec :=
  s.boot.plate.bind fun p => p.scratch.find? fun r => r.module = s.me && r.part.toNat = part

/-- KIND of a bank group of a partition; without a plate no group is kind 0. -/
def State.groupKind (s : State) (part q : Nat) : Nat :=
  match s.scratch part with
  | some r => ((r.groups[q]?).map fun g => g.kind.toNat).getD 0
  | none => 2

/-- Does a bank group list a cluster (Table 7.4)? -/
def State.groupCluster (s : State) (part q k : Nat) : Bool :=
  match s.scratch part with
  | some r => ((r.groups[q]?).map fun g => g.clusters.getLsbD k).getD false
  | none => true

/-- The trace entry of this module (R534). -/
def State.traceEntry (s : State) : Option TraceEntry :=
  s.boot.plate.bind fun p => p.trace.bind fun l => l.find? fun t => t.module = s.me

/-- May the host and fabric ports run: neither dark, detached, torn down nor without main power (R413, R439, R482, R557)? -/
def State.portsOpen (s : State) : Bool := s.boot.standing = .starting || s.boot.standing = .serving || s.boot.standing = .heldVisible

/-! ## Time and strokes (R46, R47) -/

/-- The stroke index that FT gives (R46). -/
def State.indexNow (s : State) : Stroke :=
  BitVec.ofNat 48 ((s.time.ft.toNat - s.domain.epoch.toNat * 1000) / (s.domain.period.toNat * 1000))

/-- FT of an event, 0 before FT is set. -/
def State.ftOr0 (s : State) : BitVec 64 := if s.time.ftSet then s.time.ft else 0#64

/-- FT reaches an instant (ns) at least: a time-driven event brings the clocks to its own time (notes/assumptions/6). -/
def State.reach (s : State) (t : Nat) : State :=
  if s.time.ftSet && s.time.ft.toNat < t then
    { s with time := { s.time with ft := BitVec.ofNat 64 t, mono := s.time.mono + BitVec.ofNat 64 (t - s.time.ft.toNat) } }
  else s

/-- The module's own clock reaches an instant at least; FT goes along (notes/assumptions/6). -/
def State.reachMono (s : State) (t : Nat) : State :=
  let d := t - s.time.mono.toNat
  if d = 0 then s
  else { s with time := { s.time with mono := s.time.mono + BitVec.ofNat 64 d,
                                      ft := if s.time.ftSet then s.time.ft + BitVec.ofNat 64 d else s.time.ft } }

/-- T in ns. -/
def State.periodNs (s : State) : Nat := s.domain.period.toNat * 1000

/-- FT of the start of stroke n, in ns (R46). -/
def State.strokeStart (s : State) (n : Nat) : Nat := s.domain.epoch.toNat * 1000 + n * s.periodNs

/-- The proof window in ns: 0 means 7.5 % of T, rounded down to µs (R47, Table 15.8). -/
def DomainRec.proofNs (d : DomainRec) : Nat :=
  1000 * (if d.proofWin = 0#32 then d.period.toNat * 75 / 1000 else d.proofWin.toNat)

/-- The reserved slack in ns: 0 means 4 % of T, rounded down to µs. -/
def DomainRec.slackNs (d : DomainRec) : Nat := 1000 * (if d.slack = 0#32 then d.period.toNat * 4 / 100 else d.slack.toNat)

/-- FT of the close of stroke n (Table 2.4). -/
def State.closeAt (s : State) (n : Nat) : Nat := s.strokeStart n + s.periodNs - 200000

/-- D(n), the due point (R47). -/
def State.dueAt (s : State) (n : Nat) : Nat := s.closeAt n - s.domain.slackNs

/-- The start of the proof window of stroke n. -/
def State.proofAt (s : State) (n : Nat) : Nat := s.dueAt n - s.domain.proofNs

/-- The start of the compute window of stroke n. -/
def State.computeAt (s : State) (n : Nat) : Nat := s.strokeStart n + 20000

/-- K of R327 in ns: D − S − 20 µs. -/
def State.capacityNs (s : State) : Nat := s.periodNs - 200000 - s.domain.slackNs - 20000

/-! ## Counters (R523, R524) -/

/-- A counter of the module. -/
def modCtr (id index : Nat) : CtrKey := ⟨id, 0xFF, 0xFF, index⟩

/-- The value of a counter; an unlisted one is 0. -/
def State.ctr (s : State) (k : CtrKey) : Nat := ((s.obs.ctrs.find? fun c => c.key = k).map (·.val)).getD 0

/-- A counter list with one value set. -/
def ctrPut (l : List Ctr) (k : CtrKey) (v : Nat) : List Ctr :=
  if l.any fun c => c.key = k then l.map fun c => if c.key = k then ⟨k, v⟩ else c else l ++ [⟨k, v⟩]

/-- A cumulative counter raised by n, saturating at 64 bits (R524). -/
def State.count (s : State) (k : CtrKey) (n : Nat := 1) : State :=
  if n = 0 then s
  else { s with obs := { s.obs with ctrs := ctrPut s.obs.ctrs k (min (s.ctr k + n) 0xFFFFFFFFFFFFFFFF) } }

/-- A counter that holds a state or level. -/
def State.level (s : State) (k : CtrKey) (v : Nat) : State := { s with obs := { s.obs with ctrs := ctrPut s.obs.ctrs k v } }

/-! ## Engine codes of what a die itself reports (R27, Table 1.6) -/

/-- The engine code under which a notice of a die as a whole names its unit: CC on a compute die, the stack-level resources of a stack, on LD0 the unit
of it that reports, on another link die its die-to-die network port (notes/assumptions/57). -/
def dieUnit (die ld0 : Nat) : Nat :=
  match die / 32 with
  | 0 => 0x20
  | 1 | 7 => 0xFF
  | _ => if die % 32 = 0 then ld0 else 0x10

/-! ## Trace records (R531 to R538) -/

/-- Are trace records of a kind produced now (R532)? -/
def State.tracing (s : State) (kind : Nat) : Bool :=
  s.sec.setup.obsLevel = 3#2 && s.boot.step ≥ 7 &&
    match s.traceEntry with
    | some t => kind = 7 || kind = 8 || t.kindMask.getLsbD (kind - 1)
    | none => false

/-- Records the trace buffer and the overflow region hold (R535). -/
def TraceEntry.capacity (t : TraceEntry) : Nat := 2097152 + 33554432 * t.ovfGib.toNat

/-- A GAP record of a count of lost records; FT is that of the first loss (Table 21.5). -/
def gapRec (s : State) (first : BitVec 64) (n : Nat) (die : BitVec 8) : TraceRec :=
  { ft := first, stroke := s.time.stroke, kind := 7#8, die := die, engine := BitVec.ofNat 8 (dieUnit die.toNat 0x30), layer := 0xFFFF#16, operator := 0xFFFF#16,
    payload := BitVec.ofNat 80 (min n (2 ^ 40 - 1) * 2 ^ 40) }

/-- Does a record meet the trigger condition (Table 21.7 TRIG_KIND)? -/
def triggers (t : TraceEntry) (r : TraceRec) : Bool :=
  let p := r.payload.toNat
  match t.trigKind.toNat with
  | 1 => r.kind = 5#8 && bitsOf p 79 72 = t.trigSpace.toNat && bitsOf p 71 64 = t.trigCode.toNat
  | 2 => r.kind = 4#8 && bitsOf p 79 72 = t.trigSpace.toNat && bitsOf p 71 64 = t.trigCode.toNat
  | 3 => r.kind = 1#8 && bitsOf p 47 44 ≠ 0 && (t.trigLayer = 0xFFFF#16 || t.trigLayer = r.layer) &&
      (t.trigOp = 0xFFFF#16 || t.trigOp = r.operator)
  | 4 => r.kind = 3#8 && bitsOf p 79 48 > t.trigValue.toNat
  | _ => false

/-- A record lost: counted, and remembered for the next GAP (R537, R538). -/
def loseTrace (s : State) (r : TraceRec) : State :=
  let s := s.count (modCtr 0x0082 0)
  { s with obs := { s.obs with gap := some (match s.obs.gap with
      | some g => (g.1, g.2 + 1)
      | none => (r.ft, 1)) } }

/-- A record appended to the ring of window mode, overwriting the oldest when full (R538). -/
def ringPut (cap : Nat) (l : List TraceRec) (r : TraceRec) : List TraceRec :=
  if l.length < cap then l ++ [r] else l.drop 1 ++ [r]

/-- The TRIGGER record (Table 21.5). -/
def triggerRec (s : State) (t : TraceEntry) (r : TraceRec) : TraceRec :=
  { ft := r.ft, stroke := s.time.stroke, kind := 8#8, die := 0x40#8, engine := 0x30#8, layer := 0xFFFF#16, operator := 0xFFFF#16,
    payload := BitVec.ofNat 80 (t.trigKind.toNat * 2 ^ 72) }

/-- Does the place of the next record lie in the overflow region, in a block held or fenced (R535)? -/
def ovfBlocked (s : State) (t : TraceEntry) : Bool :=
  let n := s.obs.trace.length
  let b := (bitsOf t.ovfBase.toNat 53 0 + 32 * (n - 2097152)) / 2097152
  t.ovfGib ≠ 0#8 && 2097152 ≤ n && (s.mem.fenced.contains b || s.mem.held.contains b)

/-- A record reaches the trace buffer: stream mode appends it, after a GAP for what was lost, while a slot is kept for a GAP; window mode
rings it, starts the countdown on the first trigger and freezes at its end (R535 to R538). -/
def bufferTrace (s : State) (t : TraceEntry) (r : TraceRec) : State :=
  if ovfBlocked s t then loseTrace s r
  else if t.mode then
    if s.obs.frozen then loseTrace s r
    else
      let ring := ringPut t.capacity s.obs.trace r
      match s.obs.post with
      | none =>
        if triggers t r then
          let ring := ringPut t.capacity ring (triggerRec s t r)
          { s with obs := { s.obs with trace := ring, post := some t.postCount.toNat, frozen := t.postCount = 0#32 } }
        else { s with obs := { s.obs with trace := ring } }
      | some n => { s with obs := { s.obs with trace := ring, post := some (n - 1), frozen := n ≤ 1 } }
  else
    match s.obs.gap with
    | some g =>
      if s.obs.trace.length + 2 < t.capacity then
        { s with obs := { s.obs with trace := s.obs.trace ++ [gapRec s g.1 g.2 0x40#8, r], gap := none } }
      else loseTrace s r
    | none => if s.obs.trace.length + 1 < t.capacity then { s with obs := { s.obs with trace := s.obs.trace ++ [r] } } else loseTrace s r

/-- A record of the module's own units (LD0), if its kind is enabled. -/
def State.trace (s : State) (r : TraceRec) : State :=
  match s.traceEntry with
  | some t => if s.tracing r.kind.toNat then bufferTrace s t r else s
  | none => s

/-! ## Alarms and events (R528, R529) -/

/-- An alarm or event as a trace record of its kind (Tables 21.4, 21.5). -/
def noticeRec (s : State) (n : Notice) (kind : BitVec 8) (count : Nat) (ft : BitVec 64) : TraceRec :=
  { ft := ft, stroke := s.time.stroke, kind := kind, die := n.die, engine := n.engine, layer := 0xFFFF#16, operator := 0xFFFF#16,
    payload := BitVec.ofNat 80 (n.space.toNat * 2 ^ 72 + n.code.toNat * 2 ^ 64 + (count % 2 ^ 32) * 2 ^ 32 + n.detail.toNat) }

/-- An alarm table entry for a first occurrence. -/
def AlarmEntry.new (s : State) (n : Notice) (die engine : BitVec 8) : AlarmEntry :=
  { space := n.space, code := n.code, die := die, engine := engine, detail := n.detail, ft := s.ftOr0, stroke := s.time.stroke, count := 1 }

/-- An entry repeated: COUNT + 1, FT of the latest occurrence. -/
def AlarmEntry.again (e : AlarmEntry) (s : State) (n : Notice) : AlarmEntry :=
  { e with count := e.count + 1, ft := s.ftOr0, stroke := s.time.stroke, detail := n.detail }

/-- An alarm entered in the alarm table, coalesced into its reserved entry when no entry is free (R529), and traced. -/
def State.alarm (s : State) (n : Notice) : State :=
  let mine (e : AlarmEntry) : Bool := e.space = n.space && e.code = n.code && e.die = n.die && e.engine = n.engine
  let res (e : AlarmEntry) : Bool := e.space = n.space && e.code = n.code
  let o := s.obs
  let r : ObsState × Nat :=
    match o.alarms.find? mine with
    | some e => ({ o with alarms := o.alarms.map fun x => if mine x then x.again s n else x }, e.count + 1)
    | none =>
      if o.alarms.length < 1024 then ({ o with alarms := o.alarms ++ [.new s n n.die n.engine] }, 1)
      else match o.reserved.find? res with
        | some e => ({ o with reserved := o.reserved.map fun x => if res x then x.again s n else x }, e.count + 1)
        | none => ({ o with reserved := o.reserved ++ [.new s n 0xFF#8 0xFF#8] }, 1)
  { s with obs := r.1 }.trace (noticeRec s n 5#8 r.2 s.ftOr0)

/-- Events of a (SPACE, CODE) logged in an FT second so far. -/
def rateOf (s : State) (n : Notice) (sec : Nat) : Nat :=
  ((s.obs.rates.find? fun r => r.space = n.space && r.code = n.code && r.second = sec).map (·.count)).getD 0

/-- An event of a given FT entered in the event log: at most 64 of a (SPACE, CODE) per FT second, the oldest overwritten when the log is
full, each counted (R529), and traced. -/
def State.eventAt (s : State) (n : Notice) (ft : BitVec 64) : State :=
  let sec := ft.toNat / 1000000000
  let c := rateOf s n sec
  if c ≥ 64 then s.count (modCtr 0x0080 (n.space.toNat * 256 + n.code.toNat))
  else
    let e : EventEntry := { space := n.space, code := n.code, die := n.die, engine := n.engine, detail := n.detail, ft := ft,
                            stroke := s.time.stroke, seq := s.obs.nextSeq }
    let full := s.obs.events.length ≥ 4096
    let s1 := if full then s.count (modCtr 0x0081 0) else s
    let rates := ⟨n.space, n.code, sec, c + 1⟩ :: s1.obs.rates.filter fun r => r.space ≠ n.space || r.code ≠ n.code
    let events := (if full then s1.obs.events.drop 1 else s1.obs.events) ++ [e]
    { s1 with obs := { s1.obs with events := events, rates := rates, nextSeq := s1.obs.nextSeq + 1#32 } }.trace
      (noticeRec s n 4#8 e.seq.toNat ft)

/-- An event of now. -/
def State.event (s : State) (n : Notice) : State := s.eventAt n s.ftOr0

/-- A device code of Table 21.3 of the module. -/
def devNotice (code : Nat) (die engine : Nat) (detail : Nat) : Notice :=
  { space := 4#8, code := BitVec.ofNat 8 code, die := BitVec.ofNat 8 die, engine := BitVec.ofNat 8 engine,
    detail := BitVec.ofNat 32 detail }

/-! ## Partitions -/

/-- A partition of the module. -/
def State.part (s : State) (p : Nat) : Part := (s.parts[p]?).getD .atReset

/-- A partition put in place. -/
def State.setPart (s : State) (p : Nat) (x : Part) : State := { s with parts := s.parts.setIfInBounds p x }

/-- A partition changed. -/
def State.modPart (s : State) (p : Nat) (f : Part → Part) : State := s.setPart p (f (s.part p))

/-- Every partition changed. -/
def State.mapParts (s : State) (f : Part → Part) : State := { s with parts := s.parts.map f }

/-- A twin-state change. -/
def State.modTwin (s : State) (f : TwinState → TwinState) : State := { s with twin := f s.twin }

/-- A cluster of a partition. -/
def Part.cluster (p : Part) (k : Nat) : Cluster := (p.clusters[k]?).getD .reset

/-- A cluster changed. -/
def Part.modCluster (p : Part) (k : Nat) (f : Cluster → Cluster) : Part :=
  { p with clusters := p.clusters.setIfInBounds k (f (p.cluster k)) }

/-- An array of a cluster. -/
def Cluster.array (c : Cluster) (a : Nat) : MArray := (c.arrays[a]?).getD .reset

/-- An array changed. -/
def Cluster.modArray (c : Cluster) (a : Nat) (f : MArray → MArray) : Cluster :=
  { c with arrays := c.arrays.setIfInBounds a (f (c.array a)) }

/-- The units of a compute die (Table 1.6). -/
inductive Unit' where
  | array (k a : Nat)
  | ve (k : Nat)
  | csq (k : Nat)
  | cc
  | de
  | dcache
  | none
deriving DecidableEq, Repr

/-- The unit of an engine code of a compute die; scratchpad and subchannel controllers and reserved codes are no engines. -/
def unitOf (code : Nat) : Unit' :=
  if code < 32 then
    let k := code / 8
    match code % 8 with
    | 4 => .ve k
    | 5 => .csq k
    | 6 | 7 => .none
    | a => .array k a
  else match code with
    | 0x20 => .cc
    | 0x21 => .de
    | 0x22 => .dcache
    | _ => .none

/-- A stream owner of a partition. -/
def Part.owner (p : Part) (o : Owner) : OwnerState :=
  match o with
  | .csq k => (p.cluster k).csq
  | .cc => p.cc

/-- A stream owner changed. -/
def Part.modOwner (p : Part) (o : Owner) (f : OwnerState → OwnerState) : Part :=
  match o with
  | .csq k => p.modCluster k fun c => { c with csq := f c.csq }
  | .cc => { p with cc := f p.cc }

/-- The owners of a partition. -/
def allOwners : List Owner := [.csq 0, .csq 1, .csq 2, .csq 3, .cc]

/-- Every owner of a partition changed. -/
def Part.mapOwners (p : Part) (f : OwnerState → OwnerState) : Part := allOwners.foldl (fun p o => p.modOwner o f) p

/-- The engine code of an owner (R67). -/
def ownerCode (o : Owner) : Nat :=
  match o with
  | .csq k => 8 * k + 5
  | .cc => 0x20

/-- The command generation of a unit (R81). -/
def Part.genOf (p : Part) (u : Unit') : BitVec 16 :=
  match u with
  | .array k a => ((p.cluster k).array a).gen
  | .ve k => (p.cluster k).ve.gen
  | .csq k => (p.cluster k).csq.gen
  | .cc => p.cc.gen
  | .de => p.de.gen
  | .dcache => p.dcache.gen
  | .none => 0#16

/-- The commands a unit has accepted and not completed, oldest first. -/
def Part.unitCmds (p : Part) (u : Unit') : List RunCmd :=
  match u with
  | .array k a => let m := (p.cluster k).array a; m.running ++ m.queue
  | .ve k => let v := (p.cluster k).ve; v.running ++ v.queue
  | .de => p.de.running
  | .dcache => p.dcache.running ++ p.dcache.queue
  | _ => []

/-- Engine codes of the units that accept commands. -/
def engineCodes : List Nat := (List.range 32).filter (fun c => c % 8 < 5) ++ [0x21, 0x22]

/-- Every command of a partition accepted and not completed. -/
def Part.allCmds (p : Part) : List RunCmd := engineCodes.flatMap fun c => p.unitCmds (unitOf c)

/-! ## Batch rows -/

/-- The table that the work stroke runs for an instance. -/
def State.table (s : State) (inst : BitVec 16) : Option BatchTable := s.su.tables.find? fun t => t.inst = inst

/-- The rows of an instance in the work stroke. -/
def State.rows (s : State) (inst : BitVec 16) : List BatchRow := ((s.table inst).map (·.rows)).getD []

/-! ## Semaphores and signals (R76 to R79, R448) -/

/-- A job semaphore (R448). -/
def isJobSem (n : Nat) : Bool := 8064 ≤ n

/-- A semaphore of a partition. -/
def Part.sem (p : Part) (n : Nat) : Sem := SMap.get p.sems n .zero

/-- A semaphore set; one at its reset value is not listed. -/
def Part.setSem (p : Part) (n : Nat) (v : Sem) : Part := { p with sems := SMap.set p.sems n v .zero }

/-- The effective count of a semaphore in a work stroke (R77, R448). -/
def Part.effective (p : Part) (work : Stroke) (n : Nat) : Nat :=
  let v := p.sem n
  if isJobSem n then v.count.toNat else if v.stroke = work then v.count.toNat else 0

/-- What becomes of a signal (R78). -/
inductive SigResult where
  | applied (p : Part) (saturated : Bool)
  | parked (p : Part)
  | stale
  | full
deriving DecidableEq, Repr

/-- Had a session a row in a stroke? -/
def Session.ranIn (x : Session) (w : Stroke) : Bool := x.lastRow = w || x.resumes.any fun r => r.proof = w

/-- COUNT raised by an increment, saturating at 0xFFFF, and whether it saturated (R78). -/
def satInc (c inc : BitVec 16) : BitVec 16 × Bool :=
  if c.toNat + inc.toNat > 0xFFFF then (0xFFFF#16, true) else (c + inc, false)

/-- A signal at its partition in work stroke n (R78, R448). -/
def Part.signal (p : Part) (work : Stroke) (g : Signal) : SigResult :=
  let n := g.sem.toNat
  let v := p.sem n
  if isJobSem n then
    let r := satInc v.count g.inc
    .applied (p.setSem n ⟨work, r.1⟩) r.2
  else if g.stroke = work then
    if v.stroke.toNat < work.toNat then .applied (p.setSem n ⟨work, g.inc⟩) false
    else let r := satInc v.count g.inc; .applied (p.setSem n ⟨work, r.1⟩) r.2
  else if work.toNat < g.stroke.toNat then
    if p.early.length < 256 then .parked { p with early := p.early ++ [g] } else .full
  else .stale

/-- A signal applied at a partition, counted (R78). One of a transfer that finds the early-signal buffer full waits at the module until it is parked or
applied; one of a SIG is refused before it comes here. -/
def State.signal (s : State) (p : Nat) (g : Signal) : State :=
  match (s.part p).signal s.su.work g with
  | .applied x sat => (s.setPart p x).count ⟨0x0130, p, 0xFF, 0⟩ sat.toNat
  | .parked x => s.setPart p x
  | .stale => s.count ⟨0x0131, p, 0xFF, 0⟩
  | .full => { s with mem := { s.mem with sigWait := s.mem.sigWait ++ [(p, g)] } }

/-- The parked signals of a partition, applied in arrival order when the work stroke reaches theirs (R78); those that waited for a place follow. -/
def State.releaseEarly (s : State) (p : Nat) : State :=
  let es := (s.part p).early
  let s := s.modPart p fun x => { x with early := [] }
  let held := s.mem.sigWait.filter fun w => w.1 = p
  let s := { s with mem := { s.mem with sigWait := s.mem.sigWait.filter fun w => w.1 ≠ p } }
  (es ++ held.map (·.2)).foldl (fun s g => s.signal p g) s

/-- The semaphore address of partition and number (Table 10.1). -/
def semAddr (module part sem : Nat) : GAddr := BitVec.ofNat 56 (2 ^ 55 + module * 2 ^ 44 + part * 2 ^ 40 + sem * 8)

/-! ## Exclusions (R343, R344) -/

/-- Does an interval meet this exclusion: same code and scope, not yet ended? -/
def ExclSpan.same (e : ExclSpan) (code : Nat) (only : Option SessKey) : Bool := e.code = code && e.only = only && e.stop.isNone

/-- An exclusion comes into force; one already in force goes on. -/
def State.beginExcl (s : State) (code : Nat) (only : Option SessKey) : State :=
  if s.sess.excls.any fun e => e.same code only then s
  else { s with sess := { s.sess with excls := s.sess.excls ++ [⟨code, only, s.time.stroke, none⟩] } }

/-- An exclusion ends with this stroke. -/
def State.endExcl (s : State) (code : Nat) (only : Option SessKey) : State :=
  { s with sess := { s.sess with excls := s.sess.excls.map fun e => if e.same code only then { e with stop := some s.time.stroke } else e } }

/-- Every exclusion of a code ends with this stroke. -/
def State.endCode (s : State) (code : Nat) : State :=
  { s with sess := { s.sess with excls := s.sess.excls.map fun e =>
      if e.code = code && e.stop.isNone then { e with stop := some s.time.stroke } else e } }

/-- Is an exclusion of a code in force now? -/
def State.exclOpen (s : State) (code : Nat) : Bool := s.sess.excls.any fun e => e.code = code && e.stop.isNone

end Sys2Proof.Machine
end

