-- ==== Sys2Proof/Machine/Route.lean ====
section
/-! DEFINITION. Route.lean: topology and routing (spec/12 R290 to R298), and sending a packet on a port under credits and the replay
buffer (R300, R312). -/
namespace Sys2Proof.Machine

/-! ## Addresses (R246) -/

/-- SPACE of a global address. -/
def gaSpace (a : GAddr) : Nat := bitsOf a.toNat 55 54
/-- BLOCK of a memory-space address. -/
def gaBlock (a : GAddr) : Nat := bitsOf a.toNat 52 21
/-- Byte within the block. -/
def gaInBlock (a : GAddr) : Nat := bitsOf a.toNat 20 0
/-- MODULE of a scratchpad or semaphore address. -/
def gaModule (a : GAddr) : Nat := bitsOf a.toNat 53 44
/-- PART of a scratchpad or semaphore address. -/
def gaPart (a : GAddr) : Nat := bitsOf a.toNat 43 40
/-- OFFSET of a scratchpad address. -/
def gaSpOff (a : GAddr) : Nat := bitsOf a.toNat 25 0
/-- SEM of a semaphore address. -/
def gaSem (a : GAddr) : Nat := bitsOf a.toNat 15 3

/-- A mapped layout: no reserved SPACE and no nonzero reserved field (R246). -/
def gaLayoutOk (a : GAddr) : Bool :=
  match gaSpace a with
  | 0 => bitsOf a.toNat 53 53 = 0
  | 1 => bitsOf a.toNat 39 26 = 0
  | 2 => bitsOf a.toNat 39 16 = 0 && bitsOf a.toNat 2 0 = 0
  | _ => false

/-- The granule number of an address: address / 128, with SPACE and all fields above. -/
def gaGranule (a : GAddr) : Nat := a.toNat / 128

/-- The address of a granule number. -/
def granuleAddr (g : Nat) : GAddr := BitVec.ofNat 56 (g * 128)

/-! ## Topology (R292, R293) -/

/-- The logical port of member a that faces member b of its group (R292). -/
def localPort (a b : Nat) : Nat := (b + 8 - a - 1) % 8

/-- Groups of a domain of n modules. -/
def groups (n : Nat) : Nat := (n + 7) / 8

/-- The group and global link at the far end of global link x of group g (R293). -/
def farGlobal (gs g x : Nat) : Nat × Nat :=
  let r := x % (gs - 1)
  let q := x / (gs - 1)
  ((g + r + 1) % gs, q * (gs - 1) + (gs - 2 - r))

/-- Global links in use per group (R293). -/
def usedGlobal (gs : Nat) : Nat := if gs < 2 then 0 else (gs - 1) * (64 / (gs - 1))

/-- The module and logical port that logical port j of module m is cabled to; none for an unused port (R292, R293). -/
def neighbour (n m j : Nat) : Option (Nat × Nat) :=
  let g := m / 8
  let a := m % 8
  if j < 7 then
    let b := (a + j + 1) % 8
    if 8 * g + b < n then some (8 * g + b, localPort b a) else none
  else if j < 15 then
    let x := 8 * a + (j - 7)
    if x < usedGlobal (groups n) then
      let f := farGlobal (groups n) g x
      some (8 * f.1 + f.2 / 8, 7 + f.2 % 8)
    else none
  else none

/-- The minimal route (R296): the logical port on which module `cur` sends a packet from src to dst. -/
def minimalPort (gs cur src dst : Nat) : Nat :=
  let gc := cur / 8
  let ac := cur % 8
  let gd := dst / 8
  let ad := dst % 8
  if gc = gd then localPort ac ad
  else
    let qn := 64 / (gs - 1)
    let r := (gd + gs - gc - 1) % gs
    let q := (8 * (src % 8) + ad) % qn
    let x := q * (gs - 1) + r
    if x / 8 = ac then 7 + x % 8 else localPort ac (x / 8)

/-- Modules of the domain side. -/
def State.size (s : State) : Nat := s.domain.sizeM1.toNat + 1

/-- A physical port. -/
def State.port (s : State) (p : Nat) : PortState := (s.fab.ports[p]?).getD .reset

/-- A physical port changed. -/
def State.modPort (s : State) (p : Nat) (f : PortState → PortState) : State :=
  { s with fab := { s.fab with ports := s.fab.ports.setIfInBounds p (f (s.port p)) } }

/-- Are fabric ports paired (R290)? -/
def State.paired (s : State) : Bool := s.label.variant.linkDies = 8

/-- The physical ports of a logical port (R290). -/
def State.physical (s : State) (j : Nat) : List Nat := if s.paired then [2 * j, 2 * j + 1] else [j]

/-- The logical port of a physical port. -/
def State.logicalOf (s : State) (p : Nat) : Nat := if s.paired then p / 2 else p

/-- Is a physical port up? One that retrains stays up for routing until it goes down (notes/assumptions/35). -/
def PortState.alive (x : PortState) : Bool := x.phase = .up || (x.wasUp && x.phase ≠ .down)

/-- Is a logical port of this module up? A pair is up when both its ports are (notes/assumptions/35). -/
def State.logicalUp (s : State) (j : Nat) : Bool := (s.physical j).all fun p => (s.port p).alive

/-- The link-state entry of a module's logical port; one that faces no module is unused (R292, R293, R295). -/
def State.linkEntry (s : State) (m j : Nat) : LinkEntry :=
  if j < 15 && (neighbour s.size m j).isNone then ⟨2#2, 0#2, false⟩ else SMap.get s.fab.links (32 * m + j) .zero

/-- Is a logical port of a module up, as this module knows it: its own ports at once, others from the link-state table (R295)? -/
def State.portUp (s : State) (m j : Nat) : Bool :=
  if m = s.me.toNat then s.logicalUp j else (s.linkEntry m j).state = 1#2

/-- Members of this module's group other than itself. -/
def State.members (s : State) : List Nat := (List.range 8).filter fun b => b ≠ s.me.toNat % 8

/-- The detour of a down local port to member b (R297): the lowest-numbered member that this module reaches and that reaches b. -/
def State.detourLocal (s : State) (b : Nat) : Option Nat :=
  let a := s.me.toNat % 8
  let g := s.me.toNat / 8
  (s.members.find? fun c => c ≠ b && s.logicalUp (localPort a c) && s.portUp (8 * g + c) (localPort c b)).map (localPort a)

/-- The local port to member c, or its detour. -/
def State.towards (s : State) (c : Nat) : Option Nat :=
  let j := localPort (s.me.toNat % 8) c
  if s.logicalUp j then some j else s.detourLocal c

/-- The detour of a down global port (R297). -/
def State.detourGlobal (s : State) (j : Nat) : Option Nat :=
  let g := s.me.toNat / 8
  match (List.range 8).find? fun k => 7 + k ≠ j && s.logicalUp (7 + k) with
  | some k => some (7 + k)
  | none =>
    match s.members.find? fun c => (List.range 8).any fun k => s.portUp (8 * g + c) (7 + k) with
    | some c => s.towards c
    | none => none

/-- The logical port on which a packet leaves this module (R296, R297). `back` is the logical port it came by: where R296 would send it straight back,
the holder of a down global link has sent it here, and this module routes it as the holder would. -/
def State.route (s : State) (src dst : Nat) (back : Option Nat := none) : Option Nat :=
  let j := minimalPort (groups s.size) s.me.toNat src dst
  if back = some j then s.detourGlobal j
  else if s.logicalUp j then some j
  else if j < 7 then s.detourLocal ((s.me.toNat % 8 + j + 1) % 8)
  else s.detourGlobal j

/-- Are all link-state entries of a module down (R298)? -/
def State.unreachable (s : State) (m : Nat) : Bool := (List.range 15).all fun j => !s.portUp m j

/-- The physical port of a logical port that a packet uses (R290). -/
def State.physicalFor (s : State) (j : Nat) (p : Packet) : Nat :=
  if s.paired then 2 * j + (if p.vc = 1#2 ∨ p.vc = 2#2 then bitsOf p.addr.toNat 7 7 else 0) else j

/-! ## The packet on the link (R306, R310, R319) -/

/-- The header of a packet (Table 12.3). -/
def headerBits (p : Packet) : Nat :=
  p.type.toNat * 2 ^ 248 + p.vc.toNat * 2 ^ 246 + p.hops.toNat * 2 ^ 243 + p.cls.toNat * 2 ^ 241 + p.dst.toNat * 2 ^ 230 + p.src.toNat * 2 ^ 220 +
    p.spart.toNat * 2 ^ 216 + p.dpart.toNat * 2 ^ 212 + p.gen.toNat * 2 ^ 200 + p.txn.toNat * 2 ^ 184 + p.status.toNat * 2 ^ 180 +
    p.payload.length * 2 ^ 176 + p.addr.toNat * 2 ^ 120 + p.arg.toNat

/-- Header and payload as bytes. -/
def linkBytes (p : Packet) : List Byte := leBytes 32 (headerBits p) ++ p.payload.flatMap granuleBytes

/-- CRC-32C after one more byte (R310). -/
def crcByte (c : Nat) (b : Byte) : Nat := (List.range 8).foldl (fun c _ => if c % 2 = 1 then (c / 2) ^^^ 0x82F63B78 else c / 2) (c ^^^ b.toNat)

/-- CRC-32C (Castagnoli, initial value 0xFFFFFFFF, final inversion) of bytes (R310). -/
def crc32c (bs : List Byte) : BitVec 32 := BitVec.ofNat 32 (bs.foldl crcByte 0xFFFFFFFF ^^^ 0xFFFFFFFF)

/-- The 32-bit identifier of a port direction in the nonces of R319: side, module and port of the sending end (notes/assumptions/64). -/
def State.direction (s : State) (port : Nat) : Nat := s.side.toNat * 32768 + s.me.toNat * 32 + port

/-- A packet sealed under the key of its direction and the count of packets sent under it (R319). -/
def State.sealPacket (s : State) (port : Nat) (p : Packet) : Option LinkSeal :=
  (s.port port).keyOut.map fun k =>
    let n := s.direction port * 2 ^ 64 + (s.port port).keyCount
    { nonce := BitVec.ofNat 96 n, cipher := Config.gcmCipher k n (linkBytes p), tag := Config.gcmTag k n [] (linkBytes p) }

/-- What goes on the link after a packet with an LSEQ: its tag where the link is encrypted, and the trailer over what is sent (Table 12.7). -/
def State.tailOf (s : State) (port : Nat) (p : Packet) (lseq : BitVec 12) : LinkTail :=
  let e := s.sealPacket port p
  let sent := match e with
    | some e => e.cipher ++ leBytes 16 e.tag.toNat
    | none => linkBytes p
  ⟨e, lseq, crc32c sent⟩

/-! ## Slots (R51 to R53, R304) -/

/-- FT at which slot k of stroke n starts: S + 20 µs + k × Ls (R51). -/
def State.slotAt (s : State) (n k : Nat) : Nat := s.strokeStart n + 20000 + k * (1000 * s.domain.slotLen.toNat)

/-- The slots of a stroke that the slot plan reserves on a port of this module. -/
def State.portSlots (s : State) (port : Nat) : List Nat :=
  match s.boot.plate with
  | some p => p.slotplan.flatMap fun r => (r.route.filter fun h => h.module = s.me && h.port.toNat = port).map (·.slot.toNat)
  | none => []

/-- May this module transmit in its reserved slots on a port: the manager, ALIGNED by definition, or a worker that is neither OFF-PLAN nor LOST (R41),
the port at full width with its SLOTS bit set (R304, R317)? -/
def State.slotsOn (s : State) (port : Nat) : Bool :=
  (s.isManager || (s.time.worker ≠ .offPlan && s.time.worker ≠ .lost)) && (s.port port).phase = .up && (s.port port).width = 4 &&
    (s.linkEntry s.me.toNat (s.logicalOf port)).slots

/-- Would a packet of VC1 to VC3, taking `ns` on the link, run into a reserved slot of its port, later than 20 ns after the slot's start and before
the SLOT_END of its transfer (R53, R304)? -/
def State.inSlot (s : State) (port ns : Nat) : Bool :=
  s.slotsOn port && (s.portSlots port).any fun k =>
    let t := s.slotAt s.time.stroke.toNat k
    t + 20 < s.time.ft.toNat + ns && s.time.ft.toNat < t + 1000 * s.domain.slotLen.toNat && (s.port port).slotDone ≠ some (s.time.stroke, k)

/-! ## Sending (R300, R310, R312) -/

/-- Bytes of a packet on the link: header, payload, tag if the link is encrypted, trailer (R306). -/
def State.packetBytes (s : State) (p : Packet) : Nat :=
  32 + 128 * p.payload.length + (if s.sec.setup.linkEnc then 16 else 0) + 8

/-- Nanoseconds that a packet takes on a port at its width: 50 GB/s a lane (R289, R303). -/
def State.packetNs (s : State) (port : Nat) (p : Packet) : Nat := (s.packetBytes p + 50 * max 1 (s.port port).width - 1) / (50 * max 1 (s.port port).width)

/-- Credit units of 32 B (R300). -/
def State.packetUnits (s : State) (p : Packet) : Nat := (s.packetBytes p + 31) / 32

/-- The key of a VC and hop class. -/
def vcKey (vc hop : Nat) : Nat := 8 * vc + hop

/-- Room in the replay buffer of 64 KiB (R312). -/
def State.replayRoom (s : State) (x : PortState) (p : Packet) : Bool :=
  (x.replay.map fun r => s.packetBytes r.pkt).sum + s.packetBytes p ≤ 65536

/-- Units of the far end's receive buffer of a VC: those reserved for each hop class, and the shared remainder (Table 12.2). -/
def vcBuffer (vc : Nat) : Nat × Nat := if vc = 3 then (128, 384) else (512, 5632)

/-- Units of a VC and hop class that packets sent hold at the far end: sent and not freed. CREDIT counts wrap at 2^32 (notes/assumptions/65). -/
def PortState.holds (x : PortState) (k : Nat) : Nat := (SMap.get x.used k 0 + 2 ^ 32 - SMap.get x.granted k 0) % 2 ^ 32

/-- Does a port hold credits for a packet whose HOPS counts the hop it takes now, in its class's reserve or in what the classes leave of the shared
remainder (R300, R301)? VC0 is not credited. -/
def State.hasCredit (s : State) (x : PortState) (p : Packet) : Bool :=
  let vc := p.vc.toNat
  let b := vcBuffer vc
  let class_ := p.hops.toNat - 1
  let shared (h : Nat) : Nat := x.holds (vcKey vc h) + (if h = class_ then s.packetUnits p else 0) - b.1
  p.vc = 0#2 || shared class_ = 0 || ((List.range 5).map shared).sum ≤ b.2

/-- Transmit a packet on a port: it takes credits, an LSEQ and a place in the replay buffer, and is counted (0x0040). -/
def State.transmit (s : State) (port : Nat) (p : Packet) : State :=
  let k := vcKey p.vc.toNat (p.hops.toNat - 1)
  let tail := s.tailOf port p (s.port port).txSeq
  let s' := s.modPort port fun x =>
    { x with used := if p.vc = 0#2 then x.used else SMap.set x.used k ((SMap.get x.used k 0 + s.packetUnits p) % 2 ^ 32) 0,
             txSeq := x.txSeq + 1#12, replay := x.replay ++ [⟨x.txSeq, p, 0⟩], keyCount := x.keyCount + 1 }
  (s'.count ⟨0x0040, 0xFF, 0xFF, port⟩ (s.packetBytes p)).emit (.packet port p tail)

/-- A packet leaves the receive buffer of the port it came by: its credits go back to the far end in a CREDIT word (R300, R311). -/
def State.leaveBuffer (s : State) (inb : Option (Nat × Packet)) : State :=
  match inb with
  | none => s
  | some (port, p) =>
    if p.vc = 0#2 then s
    else
      let k := vcKey p.vc.toNat (p.hops.toNat - 1)
      let n := (SMap.get (s.port port).given k 0 + s.packetUnits p) % 2 ^ 32
      (s.modPort port fun x => { x with given := SMap.insert x.given k n }).emit
        (.ctl port (.credit p.vc (BitVec.ofNat 3 (p.hops.toNat - 1)) (BitVec.ofNat 32 n)))

/-- Put a packet on a port: at once when the port is up outside a reserved slot with credits and replay room and nothing of the same class waits there,
leaving the receive buffer it came into; else behind what waits, still in that buffer (R300, R301, R304). A LOST module sends nothing (R41). -/
def State.putPacket (s : State) (w : Transit) : State :=
  let x := s.port w.port
  let same (q : Transit) : Bool := q.port = w.port && q.pkt.vc = w.pkt.vc && q.pkt.hops = w.pkt.hops
  if x.phase = .up && s.hasCredit x w.pkt && s.replayRoom x w.pkt && !s.fab.waiting.any same && s.time.worker ≠ .lost &&
      (w.pkt.vc = 0#2 || !s.inSlot w.port (s.packetNs w.port w.pkt)) then (s.transmit w.port w.pkt).leaveBuffer w.inb
  else { s with fab := { s.fab with waiting := s.fab.waiting ++ [w] } }

/-- What waits is sent, oldest first, as credits, replay room and slots allow. -/
def State.drainWaiting (s : State) : State :=
  s.fab.waiting.foldl State.putPacket { s with fab := { s.fab with waiting := [] } }

/-! ## Arriving (R300, R301, R312) -/

/-- Is a packet the next in LSEQ order on its port (R312)? -/
def State.inOrder (s : State) (a : Arrival) : Bool :=
  a.port.toNat < s.label.variant.ports && a.lseq = (s.port a.port.toNat).rxSeq + 1#12

/-- A packet accepted in LSEQ order on its port: counted (0x0041) and acknowledged (R312). -/
def State.arrive (s : State) (p : Packet) (a : Arrival) : State :=
  let port := a.port.toNat
  ((s.modPort port fun x => { x with rxSeq := a.lseq, slotEnded := x.slotEnded && p.vc ≠ 0#2 }).count
    ⟨0x0041, 0xFF, 0xFF, port⟩ (s.packetBytes p)).emit (.ctl port (.ack a.lseq))

/-- The port a packet came by, with the packet: the receive buffer that it occupies. -/
def inbOf (a : Arrival) (p : Packet) : Option (Nat × Packet) := some (a.port.toNat, p)

/-- A packet accepted whose receive buffer is free again at once. -/
def State.arriveGone (s : State) (p : Packet) (a : Arrival) : State := (s.arrive p a).leaveBuffer (inbOf a p)

/-- A packet out of LSEQ order: discarded, with a NACK of the last one received in order (R312). -/
def State.outOfOrder (s : State) (a : Arrival) : State := s.emit (.ctl a.port.toNat (.nack (s.port a.port.toNat).rxSeq))

/-- What becomes of a packet that this module sends on. -/
inductive SendResult where
  | sent (s : State)
  | noRoute (s : State)
  | hopLimit (s : State)

/-- Send a packet towards its destination: HOPS counts the hop, a sixth hop is discarded and counted (R298). A LOST module sends nothing
(R41). `inb` is the receive buffer that a packet in transit occupies until it leaves. -/
def State.sendPacket (s : State) (p : Packet) (inb : Option (Nat × Packet) := none) : SendResult :=
  if p.hops.toNat ≥ 5 then .hopLimit (s.count (modCtr 0x0046 0))
  else if s.unreachable p.dst.toNat || s.time.worker = .lost then .noRoute s
  else match s.route p.src.toNat p.dst.toNat (inb.map fun b => s.logicalOf b.1) with
    | none => .noRoute s
    | some j =>
      let p := { p with hops := p.hops + 1#3 }
      .sent (s.putPacket ⟨s.physicalFor j p, p, inb, s.time.mono⟩)

/-- The state after sending, whatever became of the packet. -/
def SendResult.state (r : SendResult) : State :=
  match r with
  | .sent s => s
  | .noRoute s => s
  | .hopLimit s => s

end Sys2Proof.Machine
end

