-- ==== Sys2Proof/Machine/Home.lean ====
section
/-! DEFINITION. Home.lean: the home of a request: directory copy, interleave, burst checks, freeze queue, first touch and scratchpad and
semaphore requests (spec/09, spec/10 R247 to R253, spec/16 R427, spec/18 R471). -/
namespace Sys2Proof
open Machine

/-! ## Packets (Tables 12.3 to 12.5) -/

/-- The response to a request (R307, Table 12.3). -/
def Packet.reply (p : Packet) (me : BitVec 10) (status : Nat) (arg : Nat) (payload : List Granule) : Packet :=
  { type := 8#8, vc := 2#2, hops := 0#3, cls := 0#2, dst := p.src, src := me, spart := p.dpart, dpart := p.spart, gen := p.gen,
    txn := p.txn, status := BitVec.ofNat 4 status, addr := p.addr, arg := BitVec.ofNat 120 arg, payload := payload }

/-- COUNT of an RD (Table 12.5). -/
def Packet.count (p : Packet) : Nat := bitsOf p.arg.toNat 119 116
/-- SUBOP of an ATOM. -/
def Packet.subop (p : Packet) : Nat := bitsOf p.arg.toNat 119 112
/-- VALUE of an ATOM. -/
def Packet.value (p : Packet) : BitVec 64 := BitVec.ofNat 64 (bitsOf p.arg.toNat 111 48)
/-- The signal of a SIG. -/
def Packet.signal (p : Packet) : Signal :=
  { sem := BitVec.ofNat 13 (gaSem p.addr), stroke := BitVec.ofNat 48 (bitsOf p.arg.toNat 119 72), inc := BitVec.ofNat 16 (bitsOf p.arg.toNat 71 56) }

/-- Address of granule k of a request. -/
def Packet.addrAt (p : Packet) (k : Nat) : GAddr := p.addr + BitVec.ofNat 56 (128 * k)

/-- Granules that a request touches. -/
def Packet.span (p : Packet) : Nat :=
  match p.type.toNat with
  | 1 => p.count
  | 2 => p.payload.length
  | _ => 1

/-- The compare value that a CAS64 carries (Table 12.4). -/
def Packet.compare (p : Packet) : BitVec 64 := BitVec.ofNat 64 (match p.payload with
  | g :: _ => g.toNat % 2 ^ 64
  | [] => 0)

/-- Is a request one that the memory space accepts: within one block, 1 to 8 granules of a read or write, one granule otherwise, atomics
aligned to their size, whole granules aligned (Tables 10.2, 12.4)? -/
def Packet.memOk (p : Packet) : Bool :=
  let n := p.span
  let whole := p.addr.toNat % 128 = 0
  match p.type.toNat with
  | 1 | 2 => whole && 1 ≤ n && n ≤ 8 && gaInBlock p.addr + 128 * n ≤ 2097152
  | 3 => whole && p.payload.length = 2
  | 4 => match atomOf p.subop with
    | some op => p.addr.toNat % op.size = 0
    | none => false
  | _ => false

end Sys2Proof

namespace Sys2Proof.Machine

/-! ## Placement and directory (R248, R249, R256) -/

/-- Bytes of a home block. -/
def blockBytes : Nat := 2097152

/-- The placement entry that holds a block, and the block's index in it. -/
def Plate.placeOf (p : Plate) (b : Nat) : Option (PlaceEntry × Nat) :=
  (p.placement.find? fun e => e.blockBase.toNat ≤ b && b < e.blockBase.toNat + e.blockCount.toNat).map fun e =>
    (e, b - e.blockBase.toNat)

/-- First home module and frame of block i of an entry (R256). -/
def PlaceEntry.homeOf (e : PlaceEntry) (i : Nat) : Nat × Nat :=
  (e.module.toNat + i % (e.mods.toNat + 1), e.frameBase.toNat + i / (e.mods.toNat + 1))

/-- The placement entry that holds a block. -/
def State.placeOf (s : State) (b : Nat) : Option (PlaceEntry × Nat) := s.boot.plate.bind fun p => p.placeOf b

/-- USE of a block; 0 for a block that is not placed. -/
def State.useOf (s : State) (b : Nat) : Nat := ((s.placeOf b).map fun e => e.1.use.toNat).getD 0

/-- Blocks of the directory, DIR_BLOCKS. -/
def State.dirBlocks (s : State) : Nat := s.domain.dirBlocksM1.toNat + 1

/-- The range that holds this module's directory copy: the first of USE 6 that DIR_BLOCKS × 4 B fit into (R249, R395). -/
def State.ownDir (s : State) : Option PlaceEntry :=
  s.boot.plate.bind fun p => p.placement.find? fun e => e.use = 6#4 && e.module = s.me && 4 * s.dirBlocks ≤ blockBytes * e.blockCount.toNat

/-- Byte address, in this module's frames, of the copy's entry of a block. -/
def State.dirAddr (s : State) (b : Nat) : Option Nat :=
  s.ownDir.map fun e => e.frameBase.toNat * blockBytes + 4 * b

/-- The copy's entry of a block (Table 10.4). -/
def State.dirEntry (s : State) (b : Nat) : BitVec 32 :=
  match s.dirAddr b with
  | some a => BitVec.ofNat 32 (s.mem.mem.readNat a 4)
  | none => 0#32

/-- An entry of the copy set; only directory updates do this (R249). -/
def State.setDirEntry (s : State) (b : Nat) (e : BitVec 32) : State :=
  match s.dirAddr b with
  | some a => { s with mem := { s.mem with mem := s.mem.mem.write a (leBytes 4 e.toNat) } }
  | none => s

/-- Fields of a directory entry (Table 10.4). -/
def dirValid (e : BitVec 32) : Bool := e.getLsbD 31
/-- PINNED of a directory entry. -/
def dirPinned (e : BitVec 32) : Bool := e.getLsbD 30
/-- MODULE of a directory entry. -/
def dirModule (e : BitVec 32) : BitVec 10 := e.extractLsb' 20 10
/-- FRAME of a directory entry. -/
def dirFrame (e : BitVec 32) : Nat := e.toNat % 2 ^ 20
/-- An entry from its fields. -/
def dirMake (pinned : Bool) (m : BitVec 10) (frame : BitVec 20) : BitVec 32 :=
  BitVec.ofNat 32 (2 ^ 31 + pinned.toNat * 2 ^ 30 + m.toNat * 2 ^ 20 + frame.toNat)

/-- Home module and frame of a block as this module's copy names them; its own copy's blocks through the placement table (R249). -/
def State.homeOf (s : State) (b : Nat) : Option (BitVec 10 × Nat) :=
  match s.placeOf b with
  | some (e, i) =>
    if e.use = 6#4 && e.module = s.me then some (s.me, (e.homeOf i).2)
    else let d := s.dirEntry b; if dirValid d && b < s.dirBlocks then some (dirModule d, dirFrame d) else none
  | none => let d := s.dirEntry b; if dirValid d && b < s.dirBlocks then some (dirModule d, dirFrame d) else none

/-! ## Interleave and subchannels (R223, R238) -/

/-- The spreads of this module. -/
def State.spreads (s : State) : List Spread :=
  match s.boot.plate with
  | some p => (p.interleave.filter fun r => r.module = s.me).flatMap (·.spreads)
  | none => []

/-- Subchannels per partition. -/
def State.nSub (s : State) : Nat := s.label.variant.subs

/-- Where a granule of a frame lies now: its spread's place, chased through the map-outs of its partition (R223, R237, R238). -/
def State.placeOfGranule (s : State) (frame g : Nat) : Option Place :=
  (s.spreads.find? fun sp => sp.holds frame).map fun sp =>
    let pl := sp.place s.nSub frame g
    let outs := (s.part pl.part).mapOuts
    let c := chase s.nSub (outs.map (·.sub)) (fun k o => match outs[k]? with
      | some m => o < m.copied
      | none => false) 4 (pl.sub, pl.off)
    { part := pl.part, sub := c.1, off := c.2 }

/-- Subchannels of a partition whose map-out has begun. -/
def State.begunOuts (s : State) (p : Nat) : Nat := ((s.part p).mapOuts.filter (·.begun)).length

/-- The frames that the map-outs of this module vacate (R238). -/
def State.vacatedFrames (s : State) : List Nat :=
  s.spreads.flatMap fun sp =>
    ((List.range sp.frameCount.toNat).map fun i => sp.frameBase.toNat + i).filter fun f => vacatedBy s.nSub sp s.begunOuts f

/-- The evacuation that runs in a partition: its first map-out begun and not over (R239). -/
def Part.evacuation (x : Part) : Option MapOut := x.mapOuts.find? fun m => m.begun && !m.out

/-- The frame and granule that granule o of a subchannel to be evacuated holds now. -/
def State.granuleOn (s : State) (p sub o : Nat) : Option (Nat × Nat) :=
  (origin s.nSub (((s.part p).mapOuts.filter fun m => m.out).map (·.sub)) 5 (sub, o)).bind fun c =>
    s.spreads.findSome? fun sp => sp.granuleAt s.nSub ⟨p, c.1, c.2⟩

/-- Is the copy of a frame's granule in flight: the next one of its partition's evacuation, in step 2 (R239, R240)? -/
def State.copying (s : State) (frame g : Nat) : Bool :=
  (List.range s.label.variant.parts).any fun p => match (s.part p).evacuation with
    | some m => m.ready && (s.part p).reset.isNone && s.granuleOn p m.sub m.copied = some (frame, g)
    | none => false

/-- Global subchannel of a place. -/
def State.subOf (s : State) (pl : Place) : Nat := subGlobal s.label.variant pl.part pl.sub

/-- A subchannel's state. -/
def State.sub (s : State) (g : Nat) : SubState := SMap.get s.mem.subs g .zero

/-- A subchannel changed. -/
def State.modSub (s : State) (g : Nat) (f : SubState → SubState) : State :=
  { s with mem := { s.mem with subs := SMap.set s.mem.subs g (f (s.sub g)) .zero } }

/-- An entry of the health record (R387). -/
def State.health (s : State) (kind g bank row : Nat) : State :=
  let e : HealthEntry := { ft := s.ftOr0, kind := BitVec.ofNat 4 kind, stack := BitVec.ofNat 5 (g / 48), subch := BitVec.ofNat 6 (g % 48),
                           bank := BitVec.ofNat 4 bank, row := BitVec.ofNat 16 row }
  { s with boot := { s.boot with health := s.boot.health ++ [e] } }

/-- A subchannel is lost (R241): recorded as mapped out for the restart that the device reset ends in, which is due from now on. -/
def State.loseSub (s : State) (g : Nat) : State :=
  let s := { s with mem := { s.mem with lost := setInsert s.mem.lost g } }
  s.health 3 g 0 0

/-- A subchannel is to be mapped out from the next boundary (R236); a fifth of its partition makes it lost (R241), which the health record
keeps for the restart. -/
def State.triggerMapOut (s : State) (g : Nat) : State :=
  let o := subOwner s.label.variant g
  let ms := (s.part o.1).mapOuts
  if ms.any fun m => m.sub = o.2 then s
  else if ms.length ≥ 4 then s.loseSub g
  else s.modPart o.1 fun p => { p with mapOuts := p.mapOuts ++ [⟨o.2, false, 0, false, false⟩] }

/-- A failing lane is marked for good and the map-out triggered (R221, R236). -/
def State.markLane (s : State) (g lane : Nat) : State :=
  (s.modSub g fun x => { x with marked := some (BitVec.ofNat 4 lane) }).triggerMapOut g

/-- A row fault (R232 to R235): the row is retired to its bank's stand-in, or the subchannel is mapped out where that is not allowed. -/
def State.rowFault (s : State) (g row bank : Nat) : State :=
  let b := SMap.get (s.sub g).banks bank ⟨none, false, none⟩
  if b.standIn.isSome || b.spareUsed then s.triggerMapOut g
  else
    let s := s.modSub g fun x => { x with banks := SMap.insert x.banks bank { b with standIn := some row } }
    ((s.health 1 g bank row).count (modCtr 0x0033 g)).event (devNotice 0x14 (stackDie (g / 48)) (g % 48) row)

/-- A transient detection in a row: counted, and the fourth within 10 minutes is a row fault (R220, R232). -/
def State.transient (s : State) (g row bank : Nat) : State :=
  let now := s.time.mono
  let key := row * 16 + bank
  let recent := (s.sub g).transients.filter fun t => t.1 = key && now.toNat < t.2.toNat + 600000000000
  let s := (s.modSub g fun x => { x with transients := (key, now) :: x.transients }).count (modCtr 0x0031 g)
  if recent.length ≥ 3 then (s.modSub g fun x => { x with transients := x.transients.filter fun t => t.1 ≠ key }).rowFault g row bank
  else s

/-- A block fenced (R244). -/
def State.fence (s : State) (b : Nat) : State := { s with mem := { s.mem with fenced := setInsert s.mem.fenced b } }

/-! ## Reading granules (R220) -/

/-- One burst read at its place under the noise it meets: the state after, and the data unless uncorrectable. -/
def State.readBurstAt (s : State) (pl : Place) (data : List Byte) (n : BurstNoise) : State × Option (List Byte) :=
  let g := s.subOf pl
  let rbc := rowBankCol pl.off
  match readBurst ((s.sub g).marked.map BitVec.toNat) data n.first.toNat n.second.toNat (laneVote n.lanes) with
  | .clean d => (s, some d)
  | .corrected d => (s.count (modCtr 0x0030 g), some d)
  | .transient d => (s.transient g rbc.1 rbc.2.1, some d)
  | .marks lane d => ((s.markLane g lane).count (modCtr (if d.isSome then 0x0030 else 0x0032) g), d)
  | .rowFault => ((s.count (modCtr 0x0032 g)).rowFault g rbc.1 rbc.2.1, none)
  | .lost => ((s.count (modCtr 0x0032 g)).loseSub g, none)
  | .bad => (s.count (modCtr 0x0032 g), none)

/-- The bursts of a granule in order; the first uncorrectable one ends the read. -/
def State.readBursts (s : State) (pl : Option Place) (noise : ReadNoise) (gi : Nat) :
    List (List Byte × Nat) → State × Option (List Byte)
  | [] => (s, some [])
  | (d, q) :: r =>
    let first : State × Option (List Byte) :=
      match pl, noise.find? fun n => n.granule = gi && n.burst.val = q with
      | some pl, some n => s.readBurstAt pl d n
      | _, _ => (s, some d)
    match first with
    | (s, none) => (s, none)
    | (s, some d) =>
      let rest := s.readBursts pl noise gi r
      (rest.1, rest.2.map fun t => d ++ t)

/-- Errors that stand in the stacks until a read meets them, from now on (R220). -/
def State.noteErrs (s : State) (errs : List MemErr) : State := { s with mem := { s.mem with errs := s.mem.errs ++ errs } }

/-- Errors that stand in a granule of a frame until a read of it meets them. -/
def State.errsAt (s : State) (frame g : Nat) : List MemErr := s.mem.errs.filter fun e => e.frame.toNat = frame && e.noise.granule = g

/-- One granule of a frame read with its checks, under the noise that the read brings and the errors that stand there; `gi` is its number in the
request. -/
def State.readGranule (s : State) (frame g : Nat) (noise : ReadNoise) (gi : Nat) : State × Option (List Byte) :=
  let pl := s.placeOfGranule frame g
  let bytes := s.mem.mem.readN (frame * blockBytes + g * 128) 128
  let met := (s.errsAt frame g).map fun e => { e.noise with granule := gi }
  let s := { s with mem := { s.mem with errs := s.mem.errs.filter fun e => !(e.frame.toNat = frame && e.noise.granule = g) } }
  let r := s.readBursts pl (noise ++ met) gi (chunksOf 32 4 bytes).zipIdx
  let die := (pl.map (·.part)).getD 0
  (r.1.count ⟨0x0022, die, 0xFF, 0⟩ 128, r.2)

/-- One granule of a frame written; an error that no read has met goes with what it replaces (R242). -/
def State.writeGranule (s : State) (frame g : Nat) (bytes : List Byte) : State :=
  let die := ((s.placeOfGranule frame g).map (·.part)).getD 0
  let errs := s.mem.errs.filter fun e => !(e.frame.toNat = frame && e.noise.granule = g)
  { s with mem := { s.mem with errs := errs, mem := s.mem.mem.write (frame * blockBytes + g * 128) bytes } }.count ⟨0x0023, die, 0xFF, 0⟩ 128

/-! ## Migration and first touch (R260, R261, R427) -/

/-- The migration of a block, if one is known. -/
def State.migOf (s : State) (b : Nat) : Option Migration := s.mem.migs.find? fun m => m.block = b

/-- A migration changed. -/
def State.modMig (s : State) (b : Nat) (f : Migration → Migration) : State :=
  { s with mem := { s.mem with migs := s.mem.migs.map fun m => if m.block = b then f m else m } }

/-- Is a block frozen here: this module is its old home and its freeze has taken effect? -/
def State.frozen (s : State) (b : Nat) : Bool :=
  match s.migOf b with
  | some m => m.oldMod = s.me && !m.switched && m.frozenAt.toNat ≤ s.time.stroke.toNat
  | none => false

/-- Does this module hold requests for a block until its freeze queue has been applied (Table 10.9, step 3)? -/
def State.switching (s : State) (b : Nat) : Bool :=
  match s.migOf b with
  | some m => m.newMod = s.me && m.switched && !m.through
  | none => false

/-- A granule's queued value in the freeze queue. -/
def State.queued (s : State) (a : GAddr) : Option Granule :=
  (s.mem.freezeQ.find? fun e => e.addr = granuleAddr (gaGranule a)).map (·.data)

/-- The value of a granule for every observer: its queued value while the block is frozen, else the frame's (R260). -/
def State.valueOf (s : State) (a : GAddr) (frame : Nat) (noise : ReadNoise) (gi : Nat) : State × Option (List Byte) :=
  match (if s.frozen (gaBlock a) then s.queued a else none) with
  | some d => (s, some (granuleBytes d))
  | none => s.readGranule frame (gaInBlock a / 128) noise gi

/-- Room for a granule in the freeze queue of 32,768 entries (R261). -/
def State.freezeRoom (s : State) (a : GAddr) : Bool := (s.queued a).isSome || s.mem.freezeQ.length < 32768

/-- A granule put into the freeze queue, replacing its entry (R261). -/
def State.freezePut (s : State) (a : GAddr) (d : Granule) : State :=
  let a := granuleAddr (gaGranule a)
  let q := s.mem.freezeQ
  let q' := if q.any fun e => e.addr = a then q.map fun e => if e.addr = a then ⟨a, d⟩ else e else q ++ [⟨a, d⟩]
  { s with mem := { s.mem with freezeQ := q' } }

/-- Is a granule protected and not yet copied or touched (R427)? -/
def State.mustTouch (s : State) (a : GAddr) : Bool :=
  s.mem.protect.contains (gaGranule a) && (SMap.find s.mem.touch (gaGranule a)).isNone

/-- Room in the touch buffer of 16,384 granules (R427). -/
def State.touchRoom (s : State) : Bool := s.mem.touch.length < 16384

/-- The old value of a protected granule put into the touch buffer before a write (R427). -/
def State.touch (s : State) (a : GAddr) (old : Granule) : State :=
  if s.mustTouch a then { s with mem := { s.mem with touch := SMap.insert s.mem.touch (gaGranule a) old } } else s

/-- A whole granule applied at its home: first touch, then the freeze queue or the frame (R260, R264, R427). -/
def State.applyWrite (s : State) (a : GAddr) (frame : Nat) (d : Granule) : State :=
  let old := s.valueOf a frame [] 0
  let s := if s.mustTouch a then s.touch a (granuleOf (old.2.getD [])) else s
  if s.frozen (gaBlock a) then s.freezePut a d else s.writeGranule frame (gaInBlock a / 128) (granuleBytes d)

/-! ## Serving (R252, R253, R307) -/

/-- What serving a request comes to: a response, or a wait in the wait store. -/
inductive Served where
  | answer (s : State) (r : Packet)
  | wait (s : State) (why : WaitWhy)

/-- Bytes of a granule with the bytes of a mask replaced (R217): bit k of the mask selects byte k. -/
def mergeMask (old new : List Byte) (mask : Nat) : List Byte :=
  (List.zip old new).zipIdx.map fun x => if mask.testBit x.2 then x.1.2 else x.1.1

/-- Granules k to k + n − 1 of a read: their data in order, or the index of the first that fails. -/
def State.readRun (s : State) (p : Packet) (frame : Nat) (noise : ReadNoise) : Nat → Nat → State × Except Nat (List Granule)
  | 0, _ => (s, .ok [])
  | n + 1, k =>
    match s.valueOf (p.addrAt k) frame noise k with
    | (s, none) => (s, .error k)
    | (s, some d) =>
      match s.readRun p frame noise n (k + 1) with
      | (s, .ok r) => (s, .ok (granuleOf d :: r))
      | (s, .error e) => (s, .error e)

/-- An uncorrectable read: the block is fenced and the request answered with the index (R242, R244). -/
def State.uncorrectable (s : State) (p : Packet) (k : Nat) : Served :=
  let s := s.fence (gaBlock p.addr)
  .answer s (p.reply s.me 4 k [])

/-- The old value of an atomic's operand in a granule (R281). -/
def atomOld (op : AtomOp) (a : GAddr) (bytes : List Byte) : BitVec 64 :=
  BitVec.ofNat 64 (leNat ((bytes.drop (a.toNat % 128)).take op.size))

/-- The granule after an atomic. -/
def atomNew (op : AtomOp) (a : GAddr) (bytes : List Byte) (v : BitVec 64) : List Byte :=
  let o := a.toNat % 128
  bytes.take o ++ leBytes op.size v.toNat ++ bytes.drop (o + op.size)

/-- Does any granule of a request need room in the freeze queue or touch buffer that is not there, and which wait it is? -/
def State.writeWait (s : State) (p : Packet) : Option WaitWhy :=
  let as := (List.range p.span).map p.addrAt
  let touches := (as.filter fun a => s.mustTouch a).length
  let entries := if s.frozen (gaBlock p.addr) then (as.filter fun a => (s.queued a).isNone).length else 0
  if s.mem.freezeQ.length + entries > 32768 then some .freezeFull
  else if s.mem.touch.length + touches > 16384 then some .touchFull
  else none

/-! ### Session rings (R373, R376) -/

/-- A ring entry from its 128 bits (Table 14.12). -/
def ringDecode (v : Nat) : RingEntry :=
  { token := BitVec.ofNat 32 (bitsOf v 127 96), outIndex := BitVec.ofNat 32 (bitsOf v 95 64), due := BitVec.ofNat 48 (bitsOf v 63 16),
    excl := BitVec.ofNat 4 (bitsOf v 15 12), breach := v.testBit 11, fin := v.testBit 10, resent := v.testBit 9 }

/-- The 128 bits of a ring entry. -/
def ringEncode (e : RingEntry) : Nat :=
  e.token.toNat * 2 ^ 96 + e.outIndex.toNat * 2 ^ 64 + e.due.toNat * 2 ^ 16 + e.excl.toNat * 2 ^ 12 + e.breach.toNat * 2 ^ 11 +
    e.fin.toNat * 2 ^ 10 + e.resent.toNat * 2 ^ 9

/-- RING_BASE of a module's port record on this side (Table 15.10). -/
def State.ringBase (s : State) (m : BitVec 10) : Option Nat :=
  s.boot.plate.bind fun p => (p.hostports.find? fun r => r.module = m && r.side = s.side).map fun r => r.ringBase.toNat

/-- SLOT of a handle (Table 14.7). -/
def slotOfHandle (h : BitVec 32) : Nat := h.toNat / 131072

/-- The transport takes a ring entry of an open session of this port module; entries of a closed one are discarded (R373, R376). Of a validation
session every output is kept until it ends (R410). -/
def Session.takeEntry (x : Session) (me : BitVec 10) (slot k : Nat) (e : RingEntry) : Session :=
  if x.port = me && slotOfHandle x.handle = slot && x.closing.isNone then
    { x with ring := SMap.insert x.ring (if x.valid.isSome then e.outIndex.toNat else k) e }
  else x

/-- Every session changed. -/
def State.mapSessions (s : State) (f : Session → Session) : State := { s with sess := { s.sess with list := s.sess.list.map f } }

/-- The ring entries that a masked write of one granule gives this module's rings (R373). -/
def State.takeRing (s : State) (a : GAddr) (data : List Byte) (mask : Nat) : State :=
  match s.ringBase s.me with
  | none => s
  | some base =>
    let off := a.toNat - base
    if a.toNat < base || 33554432 ≤ off then s
    else (List.range 8).foldl (fun s k =>
      if (mask >>> (16 * k)) % 65536 = 65535 then
        let e := ringDecode (leNat ((data.drop (16 * k)).take 16))
        s.mapSessions fun x => x.takeEntry s.me (off / 1024) (off % 1024 / 16 + k) e
      else s) s

/-- A memory-space request served from its frame (Table 10.2, R217, R281, R283). -/
def State.serveMem (s : State) (p : Packet) (frame : Nat) (noise : ReadNoise) : Served :=
  match p.type.toNat with
  | 1 =>
    match s.readRun p frame noise p.count 0 with
    | (s, .ok gs) => .answer s (p.reply s.me 0 0 gs)
    | (s, .error k) => s.uncorrectable p k
  | 2 =>
    match s.writeWait p with
    | some w => .wait s w
    | none =>
      let s := p.payload.zipIdx.foldl (fun s g => s.applyWrite (p.addrAt g.2) frame g.1) s
      .answer s (p.reply s.me 0 0 [])
  | 3 =>
    match s.writeWait p, p.payload with
    | some w, _ => .wait s w
    | none, d :: m :: _ =>
      match s.valueOf p.addr frame noise 0 with
      | (s, none) => s.uncorrectable p 0
      | (s, some old) =>
        let s := s.applyWrite p.addr frame (granuleOf (mergeMask old (granuleBytes d) (m.toNat % 2 ^ 128)))
        .answer (s.takeRing p.addr (granuleBytes d) (m.toNat % 2 ^ 128)) (p.reply s.me 0 0 [])
    | none, _ => .answer s (p.reply s.me 2 0 [])
  | _ =>
    match s.writeWait p, atomOf p.subop with
    | some w, _ => .wait s w
    | none, none => .answer s (p.reply s.me 2 0 [])
    | none, some op =>
      match s.valueOf p.addr frame noise 0 with
      | (s, none) => s.uncorrectable p 0
      | (s, some bytes) =>
        let old := atomOld op p.addr bytes
        let s := s.applyWrite p.addr frame (granuleOf (atomNew op p.addr bytes (op.apply old p.value p.compare)))
        .answer s (p.reply s.me 0 old.toNat [])

/-- Has a frame a granule on the subchannels of a partition? -/
def State.frameOn (s : State) (frame p : Nat) : Bool := s.spreads.any fun sp => sp.holds frame && sp.members.contains p

/-- Has a frame a granule on the subchannels of a partition in reset? -/
def State.frameHeld (s : State) (frame : Nat) : Bool :=
  (List.range s.label.variant.parts).any fun p => (s.part p).reset.isSome && s.frameOn frame p

/-- Does a block have a granule on the subchannels of a partition in reset, or is it held until it is rewritten (R471)? -/
def State.blockHeld (s : State) (b frame : Nat) : Bool := s.mem.held.contains b || s.frameHeld frame

/-- Do two requests name a granule in common? -/
def packetsMeet (p q : Packet) : Bool :=
  gaGranule p.addr < gaGranule q.addr + q.span && gaGranule q.addr < gaGranule p.addr + p.span

/-- Does an earlier waiting request of the same requester name a granule of this one (R261)? -/
def State.waitsBefore (s : State) (p : Packet) : Bool :=
  s.mem.waits.any fun w => w.pkt.src = p.src && w.pkt.spart = p.spart && packetsMeet w.pkt p

/-- Is a write one of the transfer of a migration to this module (Table 10.9, step 2): class 3, from the old home, before the switch? -/
def State.isCopyWrite (s : State) (p : Packet) : Bool :=
  p.type = 2#8 && p.cls = 3#2 &&
    match s.migOf (gaBlock p.addr) with
    | some m => m.newMod = s.me && m.oldMod ≠ s.me && !m.switched && p.src = m.oldMod
    | none => false

/-- The granules of a copy write put into the destination frame. -/
def State.takeCopy (s : State) (p : Packet) : State :=
  match s.migOf (gaBlock p.addr) with
  | none => s
  | some m => p.payload.zipIdx.foldl (fun s g =>
      s.writeGranule m.newFrame.toNat (gaInBlock (p.addrAt g.2) / 128) (granuleBytes g.1)) s

/-- A memory-space request at this module (R240, R252, Tables 10.6, 10.9, R244, R249, R261, R471). -/
def State.serveMemory (s : State) (p : Packet) (noise : ReadNoise) : Served :=
  let b := gaBlock p.addr
  if !gaLayoutOk p.addr || !p.memOk then .answer s (p.reply s.me 2 0 [])
  else if p.type ≠ 1#8 && s.useOf b = 6 then .answer s (p.reply s.me 2 0 [])
  else match s.homeOf b with
    | none => .answer s (p.reply s.me 2 0 [])
    | some (m, frame) =>
      if s.isCopyWrite p then
        if (s.migOf b).any fun g => s.frameHeld g.newFrame.toNat then .wait s .held else .answer (s.takeCopy p) (p.reply s.me 0 0 [])
      else if m ≠ s.me then .answer s (p.reply s.me 1 (m.toNat * 2 ^ 64) [])
      else if s.switching b then .wait s .switching
      else if s.blockHeld b frame then .wait s .held
      else if s.mem.fenced.contains b then .answer s (p.reply s.me 4 0 [])
      else if s.waitsBefore p then .wait s .behind
      else if (List.range p.span).any fun k => s.copying frame (gaInBlock p.addr / 128 + k) then .wait s .copying
      else s.serveMem p frame noise

/-! ## Scratchpad and semaphores (R181, R183, R185, R471) -/

/-- Bytes of a scratchpad. -/
def spBytes : Nat := 67108864

/-- The bank group of a scratchpad offset: 16 groups of 4 MiB (Table 7.1). -/
def groupOf (off : Nat) : Nat := off / 4194304

/-- Does a range touch a group of kind 0 (R181)? -/
def State.kindZero (s : State) (part off n : Nat) : Bool :=
  (List.range 16).any fun q => s.groupKind part q = 0 && (off < (q + 1) * 4194304 && q * 4194304 < off + n)

/-- Does a range hold an uncorrectable word (R183)? -/
def Part.badIn (p : Part) (off n : Nat) : Bool := p.bad.any fun w => off < 8 * w + 8 && 8 * w < off + n

/-- A scratchpad range written: a word wholly replaced loses its latent error (R183). -/
def Part.spWrite (p : Part) (off : Nat) (bytes : List Byte) : Part :=
  { p with sp := p.sp.write off bytes, bad := p.bad.filter fun w => !(off ≤ 8 * w + 7 && 8 * w < off + bytes.length) }

/-- A scratchpad request at this module: whole granules within one scratchpad (Table 10.2, R185). -/
def State.serveScratch (s : State) (p : Packet) : Served :=
  let part := gaPart p.addr
  let off := gaSpOff p.addr
  let n := 128 * p.span
  if p.addr.toNat % 128 ≠ 0 || !(p.type = 1#8 || p.type = 2#8) || p.span = 0 || 8 < p.span || s.label.variant.parts ≤ part || spBytes < off + n then
    .answer s (p.reply s.me 2 0 [])
  else if (s.part part).reset.isSome || s.kindZero part off n then .answer s (p.reply s.me 3 0 [])
  else if p.type = 1#8 then
    match (List.range p.span).find? fun k => (s.part part).badIn (off + 128 * k) 128 with
    | some k => .answer s (p.reply s.me 4 k [])
    | none => .answer s (p.reply s.me 0 0 ((chunksOf 128 p.span ((s.part part).sp.readN off n)).map granuleOf))
  else
    .answer (s.modPart part fun x => x.spWrite off (p.payload.flatMap granuleBytes)) (p.reply s.me 0 0 [])

/-- A signal at this module (R78, R471): REFUSED in reset, BUSY when it must be parked and the buffer is full. -/
def State.serveSignal (s : State) (p : Packet) : Served :=
  let part := gaPart p.addr
  if s.label.variant.parts ≤ part then .answer s (p.reply s.me 2 0 [])
  else if (s.part part).reset.isSome then .answer s (p.reply s.me 3 0 [])
  else match (s.part part).signal s.su.work p.signal with
    | .full => .answer s (p.reply s.me 6 0 [])
    | _ => .answer (s.signal part p.signal) (p.reply s.me 0 0 [])

/-- A request at the module that its address or the directory names (R247, R252). -/
def State.serve (s : State) (p : Packet) (noise : ReadNoise) : Served :=
  match gaSpace p.addr with
  | 0 => if p.type = 5#8 then .answer s (p.reply s.me 2 0 []) else s.serveMemory p noise
  | 1 => if gaLayoutOk p.addr && gaModule p.addr = s.me.toNat then s.serveScratch p else .answer s (p.reply s.me 2 0 [])
  | 2 => if gaLayoutOk p.addr && gaModule p.addr = s.me.toNat && p.type = 5#8 then s.serveSignal p else .answer s (p.reply s.me 2 0 [])
  | _ => .answer s (p.reply s.me 2 0 [])

/-- The counter of a wait (0x0132, 0x0133). -/
def WaitWhy.counter (w : WaitWhy) : Option Nat :=
  match w with
  | .freezeFull => some 0x0132
  | .touchFull => some 0x0133
  | _ => none

/-- Entries of the wait store per link die (R302). -/
def waitEntries : Nat := 4096

/-- Has the wait store of a link die a free entry? -/
def State.waitRoom (s : State) (ld : Option Nat) : Bool := ld.isNone || (s.mem.waits.filter fun w => w.ld = ld && !w.inBuf).length < waitEntries

/-- A request put into the wait store (R302), leaving its receive buffer; one that finds it full keeps its VC1 credits. Waits for
freeze-queue and touch-buffer room are counted (R261, R427). -/
def State.wait (s : State) (port : Option Nat) (p : Packet) (w : WaitWhy) : State :=
  let room := s.waitRoom (port.map (· / 4))
  let s := { s with mem := { s.mem with waits := s.mem.waits ++ [⟨port, p, w, !room, s.time.mono⟩] } }
  let s := if room then s.leaveBuffer (port.map fun k => (k, p)) else s
  match w.counter with
  | some c => s.count ⟨c, p.spart.toNat, 0xFF, 0⟩
  | none => s

end Sys2Proof.Machine
end

