-- ==== Sys2Proof/Machine/Engine.lean ====
section
/-! DEFINITION. Engine.lean: what every engine shares: where its commands stand, the release of signals behind its writes (R79, R270,
R271), the beginning of an engine reset (R80, R461), and the boundary of a command: counters, tally, trace (R525, R526, R531). -/
namespace Sys2Proof.Machine

/-! ## Commands of a unit -/

/-- The engine code of arrays A0 to A3 of cluster k; of its VE. -/
def arrayCode (k a : Nat) : Nat := 8 * k + a
/-- The engine code of a VE. -/
def veCode (k : Nat) : Nat := 8 * k + 4
/-- The engine code of the DE. -/
def deCode : Nat := 0x21
/-- The engine code of the die cache. -/
def dcacheCode : Nat := 0x22

/-- Every command list of a unit changed. -/
def Part.mapCmds (x : Part) (u : Unit') (f : List RunCmd → List RunCmd) : Part :=
  match u with
  | .array k a => x.modCluster k fun c => c.modArray a fun m => { m with queue := f m.queue, running := f m.running }
  | .ve k => x.modCluster k fun c => { c with ve := { c.ve with queue := f c.ve.queue, running := f c.ve.running } }
  | .de => { x with de := { x.de with running := f x.de.running } }
  | .dcache => { x with dcache := { x.dcache with queue := f x.dcache.queue, running := f x.dcache.running } }
  | _ => x

/-- One command of a unit changed. -/
def Part.modCmd (x : Part) (u : Unit') (serial : Nat) (f : RunCmd → RunCmd) : Part :=
  x.mapCmds u fun l => l.map fun c => if c.serial = serial then f c else c

/-- A command of a unit taken away. -/
def Part.dropCmd (x : Part) (u : Unit') (serial : Nat) : Part := x.mapCmds u fun l => l.filter fun c => c.serial ≠ serial

/-- Does a command write data that a later signal of its engine must wait for (R79, R270)? -/
def RunCmd.isWriter (c : RunCmd) : Bool :=
  match c.kind, c.args with
  | .mdrain, _ => true
  | .vop op, .vec o => op.hasDst && o.dst ≠ 0xFFFFFFFF#32
  | .dcopy, _ | .dwalk, _ | .dstage, _ | .dseal, _ | .upkeep, _ | .datom _, _ | .demit, _ => true
  | _, _ => false

/-- Does a signal issued behind a serial number still wait for a writing command of its engine (R79)? -/
def Part.held (x : Part) (engine serial : Nat) : Bool :=
  (x.unitCmds (unitOf engine)).any fun c => c.isWriter && c.serial < serial

/-! ## Requests of the DE -/

/-- SIG's ARG (Table 12.5). -/
def sigArg (g : Signal) : BitVec 120 := BitVec.ofNat 120 (g.stroke.toNat * 2 ^ 72 + g.inc.toNat * 2 ^ 56)

/-- A request packet of this module's DE (Table 12.3). `dst` is filled in when it is sent. -/
def State.request (s : State) (part : Nat) (type cls : Nat) (a : GAddr) (arg : BitVec 120) (payload : List Granule) : Packet :=
  { type := BitVec.ofNat 8 type, vc := 1#2, hops := 0#3, cls := BitVec.ofNat 2 cls, dst := s.me, src := s.me, spart := BitVec.ofNat 4 part,
    dpart := 0#4, gen := (s.part part).de.fgen, txn := 0#16, status := 0#4, addr := a, arg := arg, payload := payload }

/-- A request put behind those a DE has yet to send; it takes its transaction number when it is sent. -/
def Part.enqueue (x : Part) (p : Packet) (serial : Nat) (use : TxUse) : Part :=
  { x with de := { x.de with sendq := x.de.sendq ++ [⟨p, serial, use, 0, none⟩] } }

/-- Requests of a command not yet answered. -/
def Part.openReqs (x : Part) (serial : Nat) : List DeReq := (x.de.sendq ++ x.de.inflight).filter fun r => r.serial = serial

/-! ## Releases -/

/-- A release takes effect: a local signal, or a SIG request of the DE (R78). -/
def State.applyRelease (s : State) (p : Nat) (r : Release) : State :=
  match r.target with
  | none => s.signal p r.sig
  | some a => s.modPart p fun x => x.enqueue (s.request p 5 0 a (sigArg r.sig) []) r.serial .signal

/-- Every release that no earlier write holds any more takes effect, in order (R79, R271). -/
def State.flushReleases (s : State) (p : Nat) : State :=
  let x := s.part p
  let ready := x.releases.filter fun r => !x.held r.engine r.serial
  let keep := x.releases.filter fun r => x.held r.engine r.serial
  ready.foldl (fun s r => s.applyRelease p r) (s.modPart p fun x => { x with releases := keep })

/-- A release recorded, and applied at once where nothing holds it. -/
def State.release (s : State) (p : Nat) (r : Release) : State :=
  (s.modPart p fun x => { x with releases := x.releases ++ [r] }).flushReleases p

/-- The signal of a command with SIG_EN (R78): it carries the work stroke. -/
def State.cmdSignal (s : State) (h : CmdHdr) : Signal := ⟨h.sigSem, s.su.work, h.sigInc⟩

/-! ## Engine resets (R80, R461, R479) -/

/-- An engine reset begins; one in progress, or a partition reset, is not begun again. -/
def State.beginReset (s : State) (p engine : Nat) (selfTest : Bool) : State :=
  let x := s.part p
  if x.reset.isSome || x.engResets.any fun e => e.engine = engine then s
  else s.modPart p fun x => { x with engResets := x.engResets ++ [⟨engine, s.ftOr0, selfTest⟩] }

/-- Handling as a command whose timeout has expired (R80, R461). -/
def State.expire (s : State) (p engine : Nat) : State := s.beginReset p engine false

/-- Protection and touch entries that no capture needs any more. -/
def State.pruneProtect (s : State) : State :=
  let still : List Nat := s.twin.captures.flatMap fun k => k.left.map gaGranule
  { s with mem := { s.mem with protect := s.mem.protect.filter still.contains, touch := s.mem.touch.filter fun t => still.contains t.1 } }

/-- The job stops (R458): its streams end their commands as though parked, and its uncommitted proofs are discarded. A job that waits already asks its
proof back anew. -/
def State.haltJob (s : State) : State :=
  if s.job.phase = .running || s.job.phase = .between || s.job.phase = .done then
    let s := s.mapParts fun x => x.mapOwners fun o => { o with job := .reset, grant := false }
    let s := s.modTwin fun t => { t with captures := t.captures.filter fun c => c.inst ≠ 0xFFFF#16, commits := t.commits.filter fun c => c.inst ≠ 0xFFFF#16 }
    ({ s with job := { s.job with phase := .waiting, open_ := [], fetch := none } }).pruneProtect
  else { s with job := { s.job with fetch := none } }

/-- A command of a class fails through its timeout (R80); one of class 5 stops the job too (R458). -/
def State.expireCmd (s : State) (p engine : Nat) (cls : BitVec 4) : State :=
  if cls = 5#4 then (s.expire p engine).haltJob else s.expire p engine

/-- Is a unit in an engine reset; any array of a cluster resets all four (R120)? -/
def Part.inEngReset (x : Part) (engine : Nat) : Bool :=
  x.engResets.any fun e => e.engine = engine || (e.engine / 8 = engine / 8 && engine < 32 && e.engine % 8 < 4 && engine % 8 < 4)

/-! ## Trace of a die (R532) -/

/-- A record put into a die's queue of 1,024; one that finds it full is lost, counted and named by a GAP before the next. -/
def State.dieTrace (s : State) (p : Nat) (r : TraceRec) : State :=
  if !s.tracing r.kind.toNat then s
  else
    let x := s.part p
    match x.traceLost with
    | some g =>
      if x.traceq.length + 2 ≤ 1024 then
        s.modPart p fun x => { x with traceq := x.traceq ++ [gapRec s g.1 g.2 (BitVec.ofNat 8 p), r], traceLost := none }
      else (s.count (modCtr 0x0082 0)).modPart p fun x => { x with traceLost := some (g.1, g.2 + 1) }
    | none =>
      if x.traceq.length + 1 ≤ 1024 then s.modPart p fun x => { x with traceq := x.traceq ++ [r] }
      else (s.count (modCtr 0x0082 0)).modPart p fun x => { x with traceLost := some (r.ft, 1) }

/-! ## The boundary of a command (R525, R526) -/

/-- Counts added (R526 keeps the sums of 0x0100 to 0x0104). -/
def CmdCounts.plus (a b : CmdCounts) : CmdCounts :=
  ⟨a.busy + b.busy, a.stall + b.stall, a.rdBytes + b.rdBytes, a.wrBytes + b.wrBytes, a.macs + b.macs, a.st.add b.st, a.sats + b.sats⟩

/-- The closed values added to the tally: to the command's entry, a new entry, or the overflow entry (R526). -/
def Part.tallyAdd (x : Part) (c : RunCmd) : Part :=
  let same (e : TallyEntry) : Bool := e.layer = c.hdr.layer && e.oper = c.hdr.operator
  if x.tally.any same then { x with tally := x.tally.map fun e => if same e then { e with cnt := e.cnt.plus c.cnt } else e }
  else if x.tally.length < 4096 then { x with tally := x.tally ++ [⟨c.hdr.layer, c.hdr.operator, c.cnt⟩] }
  else { x with tallyOver := x.tallyOver.plus c.cnt }

/-- ROW of a command: its ROWLOOP iteration, 0xFFFF outside a loop (Table 21.2). -/
def RunCmd.rowField (c : RunCmd) : Nat :=
  match c.iter with
  | some i => i % 65536
  | none => 0xFFFF

/-- A trace record of a command (Table 21.5). -/
def cmdRec (s : State) (p engine : Nat) (c : RunCmd) (kind payload : Nat) : TraceRec :=
  { ft := s.ftOr0, stroke := c.stroke, kind := BitVec.ofNat 8 kind, die := BitVec.ofNat 8 p, engine := BitVec.ofNat 8 engine,
    layer := c.hdr.layer, operator := c.hdr.operator, payload := BitVec.ofNat 80 payload }

/-- Cycles of the arithmetic clock in a span of nanoseconds: 800 per microsecond (R80). -/
def cyclesOf (ns : Nat) : Nat := ns * 4 / 5

/-- The arithmetic clock in MHz at a stage (Table 19.1). -/
def stageMhz (stage : Nat) : Nat :=
  match stage with
  | 0 => 800
  | 1 => 700
  | 2 => 600
  | 3 => 500
  | _ => 400

/-- Nanoseconds of a number of cycles of the arithmetic clock as it runs now: by the stage, and at twice their length during a supply warning (R485,
R491). -/
def State.clockNs (s : State) (cycles : Nat) : Nat :=
  let mhz := stageMhz (max s.pwr.pstage s.pwr.tstage)
  ((if s.pwr.warning then 2 else 1) * cycles * 1000 + (mhz - 1)) / mhz

/-- FT at which a TIMEOUT that began at `head` expires (R80): 800 cycles of the arithmetic clock per microsecond. The whole count is taken at the
clock of now (notes/assumptions/62). -/
def State.timeoutEnd (s : State) (head : Word64) (timeout : BitVec 24) : Nat := head.toNat + s.clockNs (800 * timeout.toNat)

/-- COMMAND payload. -/
def commandPayload (s : State) (c : RunCmd) (opcode outcome : Nat) : Nat :=
  let cyc := min (cyclesOf (s.ftOr0.toNat - c.issuedAt.toNat)) 0xFFFFFF
  cyc * 2 ^ 56 + opcode * 2 ^ 48 + outcome * 2 ^ 44 + c.hdr.cls.toNat * 2 ^ 40 + (c.index % 2 ^ 24) * 2 ^ 16 + c.rowField

/-- STATUS payload. -/
def statusPayload (c : RunCmd) (i n : Nat) : Nat :=
  i * 2 ^ 72 + (n % 2 ^ 32) * 2 ^ 40 + (c.index % 2 ^ 24) * 2 ^ 16 + c.rowField

/-- The COMMAND record of a command with TRACE set, and a STATUS record for each status count that rose. -/
def State.traceCmd (s : State) (p engine : Nat) (c : RunCmd) (outcome : Nat) : State :=
  if !c.hdr.trace then s
  else
    let s := s.dieTrace p (cmdRec s p engine c 1 (commandPayload s c c.kind.opcode outcome))
    ((List.range 7).filter fun i => c.cnt.st.get i ≠ 0).foldl
      (fun s i => s.dieTrace p (cmdRec s p engine c 2 (statusPayload c i (c.cnt.st.get i)))) s

/-- The boundary of a command: its counters close with its tag, the tally takes them, its trace records are built. -/
def State.closeCmd (s : State) (p engine : Nat) (c : RunCmd) (outcome state : Nat) : State :=
  let cl : ClosedCnt := { cnt := c.cnt, layer := c.hdr.layer, oper := c.hdr.operator, index := c.index, iter := c.iter, stroke := c.stroke,
                          state := state }
  let s := s.modPart p fun x => { x with closed := SMap.insert x.closed engine cl }.tallyAdd c
  s.traceCmd p engine c outcome

/-- Does every engine of a partition hold no command of classes 0 to 4 (R91, R449)? -/
def Part.servingDone (x : Part) : Bool := x.allCmds.all fun c => c.hdr.cls = 5#4

end Sys2Proof.Machine
end

