-- ==== Sys2Proof/Machine/Matrix.lean ====
section
/-! DEFINITION. Matrix.lean: starting the commands of the matrix arrays (spec/04 R102 to R127). A command's results are worked out when it starts; an
MDRAIN's reach the scratchpad row by row while it runs (R279); its completion is a command of its own. -/
namespace Sys2Proof.Machine

/-- What an attempt to start a command comes to: it waits, it is handled as an expired timeout, or it runs. -/
inductive Start where
  | wait
  | expire
  | run (s : State)

/-- The arrays that a command of gang shape g named on array a uses (R109). -/
def gangArrays (gang a : Nat) : List Nat := if gang = 0 then [a] else [0, 1, 2, 3]

/-- A scratchpad operand of a matrix command, its ROWREL offset added (R70, R74). -/
def RunCmd.operand (c : RunCmd) (f : BitVec 32) : Nat := f.toNat + c.off

/-- A matrix operand that may not start: misaligned, past the end of the scratchpad, or in a group of kind 0 (R118, R181). -/
def State.badOperand (s : State) (p off n align : Nat) : Bool := off % align ≠ 0 || spBytes < off + n || s.kindZero p off n

/-- Reading an uncorrectable word ends a command as UNCORRECTABLE (R183, R243). -/
def readEnd (p : Nat) (me : BitVec 10) (off : Nat) : CmdEnd := .uncorrectable (2 ^ 54 + me.toNat * 2 ^ 44 + p * 2 ^ 40 + off)

/-- Does array a of a cluster run a command of a kind? -/
def Cluster.runs (c : Cluster) (a : Nat) (k : CmdKind) : Bool := (c.array a).running.any fun r => r.kind = k

/-- The ganged commands that A0 has accepted or runs (R69, R110). -/
def Cluster.ganged (c : Cluster) : List RunCmd :=
  ((c.array 0).running ++ (c.array 0).queue).filter fun r => match r.args with
    | .mat o => o.gang ≠ 0#4
    | _ => false

/-- Is a ganged command running (R110)? -/
def Cluster.gangRuns (c : Cluster) : Bool := c.ganged.any fun r => (c.array 0).running.any fun q => q.serial = r.serial

/-- May a command start on its arrays: a ganged one only when A0 to A3 run nothing and hold nothing before it, another only while no ganged one
runs (R110)? -/
def Cluster.gangFree (c : Cluster) (gang : Nat) : Bool :=
  if gang = 0 then !c.gangRuns
  else ([0, 1, 2, 3].all fun a => (c.array a).running.isEmpty) && [1, 2, 3].all fun a => (c.array a).queue.isEmpty

/-- The tile that an MMUL would use: the waiting shadow, else the active one (R106). -/
def MArray.nextTile (m : MArray) : Option Tile := if m.waiting then m.shadow else m.active

/-- An array after a swap. -/
def MArray.swapped (m : MArray) : MArray := if m.waiting then { m with active := m.shadow, shadow := none, waiting := false } else m

/-- Has a command of an array still to begin, though its place is fixed? The next one waits for it. -/
def MArray.ahead (m : MArray) (now : Nat) : Bool := now < m.clock.started

/-- When a command begins on its arrays, in ns: after its issue and the command before it, and after what it has waited for: an MMUL for the entry
port, its tile and the MDRAINs before it, an MDRAIN for the MMULs and the MDRAIN before it, an MLOAD for the tile before it (R107, R114). -/
def Cluster.startsAt (cl : Cluster) (arrs : List Nat) (c : RunCmd) : Nat :=
  arrs.foldl (fun t i =>
    let k := (cl.array i).clock
    let after := match c.kind with
      | .mmul => max k.entry (max k.tileAt k.drainAt)
      | .mdrain => max k.rowsAt k.drainAt
      | _ => k.tileAt
    max t (max k.started after)) c.issuedAt.toNat

/-- A command begins to run on array a of cluster k: taken from the queue, its start noted; `port` is for how many cycles an MMUL holds the entry
port. -/
def State.markRunning (s : State) (p k a : Nat) (c : RunCmd) (arrs : List Nat) (port : Nat) : State :=
  let t := ((s.part p).cluster k).startsAt arrs c
  let s := s.modPart p fun x => x.modCluster k fun cl => arrs.foldl (fun cl i => cl.modArray i fun m =>
    { m with clock := { m.clock with started := t, entry := if c.kind = .mmul then t + s.clockNs port else m.clock.entry } }) cl
  s.modPart p fun x => x.modCluster k fun cl => cl.modArray a fun m =>
    { m with queue := m.queue.filter fun q => q.serial ≠ c.serial,
             running := m.running ++ [{ c with startAt := some (BitVec.ofNat 64 t), done := true }] }

/-- MLOAD (R105, R107): the tile goes into the shadow of its arrays; it waits there once the command completes. -/
def startMload (s : State) (p k a : Nat) (c : RunCmd) (o : MatOps) : Start :=
  let x := s.part p
  let cl := x.cluster k
  let arrs := gangArrays o.gang.toNat a
  let src := c.operand o.src
  let n := tileBytes c.hdr.srcfmt.toNat o.k.toNat o.n.toNat
  if !cl.gangFree o.gang.toNat || arrs.any (fun i => cl.runs i .mload || (cl.array i).waiting || (cl.array i).ahead s.ftOr0.toNat) then .wait
  else if s.badOperand p src n 32 then .expire
  else
    let bad := x.badIn src n
    let t := tileOfBytes c.hdr.srcfmt.toNat o.k.toNat o.n.toNat o.gang.toNat (x.sp.readN src n)
    let c := { c with cnt := { c.cnt with busy := mloadCycles, rdBytes := n }, ending := if bad then readEnd p s.me src else .ok }
    let s := s.modPart p fun x => x.modCluster k fun cl => arrs.foldl (fun cl i => cl.modArray i fun m =>
      { m with shadow := if bad then none else some (t.part i) }) cl
    .run (s.markRunning p k a c arrs 0)

/-- Accumulator entries that two commands name overlap (R114). -/
def entriesMeet (a b : MatOps) : Bool :=
  a.accBase.toNat < b.accBase.toNat + b.m.toNat && b.accBase.toNat < a.accBase.toNat + a.m.toNat

/-- Does a running MDRAIN of an array still read entries that an MMUL would write (R114)? -/
def Cluster.drains (c : Cluster) (a : Nat) (o : MatOps) : Bool :=
  (c.array a).running.any fun r => r.kind = .mdrain && match r.args with
    | .mat d => entriesMeet o d
    | _ => false

/-- The tile rows and scales that a gang of arrays holds together (R109). -/
def gangTile (gang a : Nat) (tiles : Nat → Option Tile) : List (List Nat) × List (List Nat) :=
  let r (i : Nat) := ((tiles i).map (·.rows)).getD []
  let c (i : Nat) := ((tiles i).map (·.scales)).getD []
  if gang = 0 then (r a, c a) else (gangJoin gang (r 0) (r 1) (r 2) (r 3), gangJoin gang (c 0) (c 1) (c 2) (c 3))

/-- The partial sums of one activation row: one for each of N columns (R112, R119). -/
def rowSums (fmt n : Nat) (rows scales : List (List Nat)) (act : List Nat × List Nat) : List Word32 :=
  (List.range n).map fun j => partialSum fmt act.1 act.2 (columnOf rows j) (columnOf scales j)

/-- An accumulator entry of a cluster updated (R111). -/
def accUpdate (gang own acc entry : Nat) (cl : Cluster) (js : Nat × Word32) : Cluster :=
  let pl := accPlace gang own js.1
  cl.modArray pl.1 fun m =>
    let key := 128 * entry + pl.2
    { m with acc := SMap.set m.acc key (accumulate acc (SMap.get m.acc key 0#32) js.2) 0#32 }

/-- MMUL (R108, R111 to R114, R119): its rows go through the tile into the accumulators, entering right behind those of the MMUL before it, whose rows
may still be in the array; a tile that does not match is handled as an expired timeout. -/
def startMmul (s : State) (p k a : Nat) (c : RunCmd) (o : MatOps) : Start :=
  let x := s.part p
  let cl := x.cluster k
  let gang := o.gang.toNat
  let arrs := gangArrays gang a
  let fmt := c.hdr.srcfmt.toNat
  let src := c.operand o.src
  let n := planeBytes fmt o.m.toNat o.k.toNat
  if !cl.gangFree gang || arrs.any (fun i => cl.runs i .mload || cl.drains i o || (cl.array i).ahead s.ftOr0.toNat) then .wait
  else
    let fits := arrs.all fun i => match (cl.array i).nextTile with
      | some t => t.fmt = fmt && t.k = o.k.toNat && t.n = o.n.toNat && t.gang = gang
      | none => false
    if !fits || s.badOperand p src n 32 then .expire
    else
      let bad := x.badIn src n
      let w := gangTile gang a fun i => (cl.array i).nextTile
      let acts := actRows fmt o.m.toNat o.k.toNat (x.sp.readN src n)
      let c := { c with cnt := { c.cnt with busy := mmulCycles fmt gang o.m.toNat, rdBytes := n,
                                            macs := o.m.toNat * o.k.toNat * o.n.toNat },
                        ending := if bad then readEnd p s.me src else .ok }
      let cl := arrs.foldl (fun cl i => cl.modArray i MArray.swapped) cl
      let cl := if bad then cl else acts.zipIdx.foldl (fun cl r =>
        (rowSums fmt o.n.toNat w.1 w.2 r.1).zipIdx.foldl (fun cl v =>
          accUpdate gang a o.acc.toNat (o.accBase.toNat + r.2) cl (v.2, v.1)) cl) cl
      .run ((s.modPart p fun x => x.modCluster k fun _ => cl).markRunning p k a c arrs (portCycles fmt o.m.toNat))

/-- Does a scratchpad range touch a group whose CLUSTERS bit k is clear (R125, R180)? -/
def State.notMine (s : State) (p k off n : Nat) : Bool :=
  (List.range 16).any fun q => !s.groupCluster p q k && (off < (q + 1) * 4194304 && q * 4194304 < off + n)

/-- A vector that a parameter block names may not be used (R125, R181). -/
def State.badVector (s : State) (p k ptr n : Nat) : Bool :=
  ptr % 4 ≠ 0 || spBytes < ptr + 4 * n || s.notMine p k ptr (4 * n) || s.kindZero p ptr (4 * n)

/-- Words of a vector of FP32 values. -/
def fp32Vector (x : Part) (ptr n : Nat) : List Word32 :=
  (chunksOf 4 n (x.sp.readN ptr (4 * n))).map fun w => BitVec.ofNat 32 (leNat w)

/-- The accumulator values of an output row: columns 0 to N − 1 of an entry (R119). -/
def accRow (cl : Cluster) (gang own n entry : Nat) : List Word32 :=
  (List.range n).map fun j => let pl := accPlace gang own j; SMap.get (cl.array pl.1).acc (128 * entry + pl.2) 0#32

/-- The line writes of an MDRAIN: one entry for each output row in ascending order, its element bytes and, for the MX formats, its scale bytes, which
are written in the same cycle as separate line writes (R279). -/
def drainLines (out n bits : Nat) (rows : List (List Nat × List Byte × Nat)) : List (List (Nat × List Byte)) :=
  let rowBytes := n * bits / 8
  rows.zipIdx.map fun r =>
    let scales := r.1.2.1
    (out + r.2 * rowBytes, packElems bits r.1.1) ::
      (if scales.isEmpty then [] else [(out + rows.length * rowBytes + r.2 * scales.length, scales)])

/-- MDRAIN (R123 to R127): the accumulators converted into scratchpad. -/
def startMdrain (s : State) (p k a : Nat) (c : RunCmd) (o : MatOps) : Start :=
  let x := s.part p
  let cl := x.cluster k
  let gang := o.gang.toNat
  let arrs := gangArrays gang a
  let dst := c.hdr.dstfmt.toNat
  let n := o.n.toNat
  let out := c.operand o.src
  let outBytes := if dst = 9 then o.m.toNat * n * 4 else planeBytes dst o.m.toNat n
  let aux := c.operand o.aux
  if !cl.gangFree gang || arrs.any (fun i => cl.runs i .mmul || cl.runs i .mdrain || (cl.array i).ahead s.ftOr0.toNat) then .wait
  else if s.badOperand p out outBytes 32 || s.badOperand p aux 64 32 then .expire
  else
    let b := convBlockOf (x.sp.readN aux 64)
    let useS := b.scaleMode = 2
    if b.scaleMode = 3 || b.rsvd || (useS && s.badVector p k b.scalePtr n) || (b.biasEn && s.badVector p k b.biasPtr n) then .expire
    else
      let bad := x.badIn aux 64 || (useS && x.badIn b.scalePtr (4 * n)) || (b.biasEn && x.badIn b.biasPtr (4 * n))
      let ss := if useS then fp32Vector x b.scalePtr n else List.replicate n (if b.scaleMode = 1 then b.uniScale else 0x3F800000#32)
      let bs := if b.biasEn then fp32Vector x b.biasPtr n else List.replicate n 0x80000000#32
      let rows := (List.range o.m.toNat).map fun i =>
        convRow dst (List.zipWith (fun sb v => convValue b sb.1 sb.2 v) (List.zip ss bs) (accRow cl gang a n (o.accBase.toNat + i)))
      let bits := if dst = 9 then 32 else elemBits dst
      let c := { c with cnt := { c.cnt with busy := mdrainCycles o.m.toNat, wrBytes := if bad then 0 else outBytes,
                                            sats := if bad then 0 else (rows.map fun r => r.2.2).sum },
                        lines := if bad then [] else drainLines out n bits rows,
                        ending := if bad then readEnd p s.me aux else .ok }
      .run (s.markRunning p k a c arrs 0)

/-- The command at the head of an array's queue tries to start (R114). -/
def startArray (s : State) (p k a : Nat) : State :=
  let x := s.part p
  match ((x.cluster k).array a).queue with
  | [] => s
  | c :: _ =>
    if x.inEngReset (arrayCode k a) then s
    else
      let r : Start := match c.args with
        | .mat o =>
          match c.kind with
          | .mload => startMload s p k a c o
          | .mmul => startMmul s p k a c o
          | .mdrain => startMdrain s p k a c o
          | _ => .wait
        | _ => .wait
      match r with
      | .wait => s
      | .expire => s.expireCmd p (arrayCode k a) c.hdr.cls
      | .run s => s

/-- Can array a of a cluster accept a command of gang shape `gang` (Table 3.16, R69, R110)? -/
def Cluster.accepts (c : Cluster) (a gang : Nat) : Bool :=
  (c.array a).queue.length < 2 && (gang ≠ 0 || (!c.gangRuns && (a = 0 || c.ganged.isEmpty)))

/-- An array's times after a command of a kind has completed at t ns. -/
def ArrayClock.after (k : ArrayClock) (kind : CmdKind) (t : Nat) : ArrayClock :=
  match kind with
  | .mload => { k with tileAt := t }
  | .mmul => { k with rowsAt := t, heldTo := max k.heldTo t }
  | .mdrain => { k with drainAt := t }
  | _ => k

/-- A matrix command that has completed at t ns leaves its array; a completed MLOAD's tile waits in the shadow (R106, R115). -/
def Cluster.finish (cl : Cluster) (a : Nat) (c : RunCmd) (t : Nat) : Cluster :=
  let cl := cl.modArray a fun m => { m with running := m.running.filter fun r => r.serial ≠ c.serial }
  match c.args with
  | .mat o => (gangArrays o.gang.toNat a).foldl (fun cl i => cl.modArray i fun m =>
      { m with waiting := if c.kind = .mload then m.shadow.isSome else m.waiting, clock := m.clock.after c.kind t }) cl
  | _ => cl

end Sys2Proof.Machine
end

