-- ==== Sys2Proof/Machine/Vector.lean ====
section
/-! DEFINITION. Vector.lean: starting the commands of a vector engine (spec/06 R147 to R163), the reads of an MLD through the die cache
(spec/11 R274, R276), and CINV (R275). -/
namespace Sys2Proof.Machine

/-! ## Operands of a VOP -/

/-- SUMKIND and BSRC of a VOP (Table 6.2). -/
def vopSumkind (o : VecOps) : Nat := bitsOf o.mod.toNat 7 5
/-- BSRC. -/
def vopBsrc (o : VecOps) : Nat := bitsOf o.mod.toNat 1 0

/-- Bytes of a source or destination window of a VOP (Table 6.1). -/
def vopWin (op : VOp) (fmt : Nat) : Nat := if op = .cvt then windowBytes fmt else 4096

/-- The scratchpad runs of a VOP: offsets and lengths in bytes (R163); its DST last. -/
def vopRuns (op : VOp) (h : CmdHdr) (o : VecOps) (off : Nat) : List (Nat × Nat) :=
  let n := o.count.toNat
  let run (f : BitVec 32) (len : Nat) : List (Nat × Nat) :=
    match winField f off with
    | .pass => []
    | .at b => [(b, len)]
  let u := op.uses
  (if u.1 then run o.srcA (n * vopWin op h.srcfmt.toNat) else []) ++
  (if u.2.1 && vopBsrc o = 0 then run o.srcB (n * 4096) else []) ++
  (if op = .gather then run o.srcB (4 * o.imm.toNat) else []) ++
  (if u.2.2 then run o.srcC (n * 4096) else []) ++
  (if op.hasDst then run o.dst ((if op = .topk then 1 else n) * vopWin op h.dstfmt.toNat) else [])

/-- The DST run of a VOP, if it is in scratchpad. -/
def vopDst (op : VOp) (h : CmdHdr) (o : VecOps) (off : Nat) : Option (Nat × Nat) :=
  if op.hasDst then match winField o.dst off with
    | .pass => none
    | .at b => some (b, (if op = .topk then 1 else o.count.toNat) * vopWin op h.dstfmt.toNat)
  else none

/-- The source runs alone. -/
def vopSources (op : VOp) (h : CmdHdr) (o : VecOps) (off : Nat) : List (Nat × Nat) :=
  let all := vopRuns op h o off
  if (vopDst op h o off).isSome then all.dropLast else all

/-- Does a VOP name the pass register in a source field that its operation uses (R71, R152)? SRC_B names it under any BSRC. -/
def vopNamesPass (op : VOp) (o : VecOps) : Bool :=
  let p (f : BitVec 32) : Bool := f = 0xFFFFFFFF#32
  let u := op.uses
  (u.1 && p o.srcA) || ((u.2.1 || op = .gather) && p o.srcB) || (u.2.2 && p o.srcC)

/-- Does a VOP read the pass register (R151)? Under BSRC 1 or 2 SRC_B is not read (Table 6.2). -/
def vopReadsPass (op : VOp) (o : VecOps) : Bool :=
  vopNamesPass op (if op ≠ .gather && vopBsrc o ≠ 0 then { o with srcB := 0#32 } else o)

/-- The global address of an MLD: {SRC_C[23:0], SRC_B} (Table 6.4). DESIGN CHOICE (notes/assumptions/69): SRC_C[31:24] may hold anything and is not read. -/
def mldAddr (o : VecOps) : GAddr := BitVec.ofNat 56 ((o.srcC.toNat % 2 ^ 24) * 2 ^ 32 + o.srcB.toNat)

/-- The row a command works on under ROWREL (R74, R159). -/
def State.rowOf (s : State) (c : RunCmd) : Option BatchRow := c.row.bind fun r => (s.rows c.inst)[r]?

/-- The decoded operands of a VOP at its start: operand B of BSRC 2 is the summary slot's value then (Table 6.2). -/
def vopArgs (s : State) (ve : Ve) (c : RunCmd) (o : VecOps) : VArgs :=
  let row := s.rowOf c
  { a := winField o.srcA c.off, b := winField o.srcB c.off,
    bcast := match vopBsrc o with
      | 1 => some o.imm
      | 2 => some ((ve.slots[o.sumslot.toNat]?).getD 0#32)
      | _ => none,
    c := winField o.srcC c.off, dst := winField o.dst c.off, imm := o.imm, count := o.count.toNat,
    srcfmt := c.hdr.srcfmt.toNat, dstfmt := c.hdr.dstfmt.toNat,
    seed := (row.map (·.seed)).getD 0#64, outIdx := (row.map (·.outIndex)).getD 0#32 }

/-! ## The die cache (R274, R276) -/

/-- The lines that stand after any of them may have been replaced: bit k of a free value replaces the k-th line (R274). -/
def replaced (v : Nat) (lines : SMap Granule) : SMap Granule := (lines.zipIdx.filter fun l => !v.testBit l.2).map (·.1)

/-- Any line may be replaced at any time: the choice is a free value (R274, notes/assumptions/2.md). -/
def State.replaceLines (s : State) (p : Nat) : State :=
  let v := Config.freeNat s.free
  { s.modPart p fun x => { x with dcache := { x.dcache with lines := replaced v x.dcache.lines } } with free := s.free + 1 }

/-- Lines of the 8 MiB die cache. -/
def dcacheLines : Nat := 65536

/-- A filled line kept, unless a CINV covered the fill (R275); when the cache is full a line of free choice gives way. -/
def State.fillLine (s : State) (p g : Nat) (d : Granule) : State :=
  let dc := (s.part p).dcache
  if dc.noKeep.contains g then
    s.modPart p fun x => { x with dcache := { x.dcache with noKeep := x.dcache.noKeep.erase g } }
  else
    let full := dcacheLines ≤ dc.lines.length
    let k := Config.freeNat s.free % dcacheLines
    let lines := if full then dc.lines.eraseIdx k else dc.lines
    { s.modPart p fun x => { x with dcache := { x.dcache with lines := SMap.insert lines g d } } with
      free := if full then s.free + 1 else s.free }

/-- Priority class of an MLD's fills (Table 9.6). -/
def readClass (cls : BitVec 4) : Nat := if cls = 0#4 then 1 else if cls.toNat ≤ 3 then 2 else 3

/-- An MLD starts: granules it finds in the die cache are taken, the others requested at their homes or banks (R274, R255, R184). -/
def startMld (s : State) (p k : Nat) (c : RunCmd) (o : VecOps) : State :=
  let s := s.replaceLines p
  let a := mldAddr o
  let gs := (List.range (32 * o.count.toNat)).map fun i => gaGranule a + i
  let lines := (s.part p).dcache.lines
  let hit (g : Nat) : Option Granule := if gaSpace a = 0 then SMap.find lines g else none
  let got := gs.foldl (fun m g => match hit g with
    | some d => SMap.insert m g d
    | none => m) c.got
  let miss := gs.filter fun g => (hit g).isNone
  let c := { c with got := got, startAt := some s.ftOr0, cnt := { c.cnt with busy := 16 + 4 * o.count.toNat } }
  let s := s.modPart p fun x => x.modCluster k fun cl =>
    { cl with ve := { cl.ve with queue := cl.ve.queue.filter fun q => q.serial ≠ c.serial, running := [c] } }
  miss.foldl (fun s g => s.modPart p fun x =>
    x.enqueue (s.request p 1 (readClass c.hdr.cls) (granuleAddr g) (BitVec.ofNat 120 (2 ^ 116)) []) c.serial .gather) s

/-- An MLD writes each granule to its destination as it returns (R161); once all have come its work is done, and a destination in the pass register
is loaded whole. -/
def State.mldProgress (s : State) (p k : Nat) : State :=
  let x := s.part p
  match (x.cluster k).ve.running with
  | c :: _ =>
    match c.kind, c.args with
    | .vop .mld, .vec o =>
      let ds := (List.range (32 * o.count.toNat)).map fun i => SMap.find c.got (gaGranule (mldAddr o) + i)
      if c.done || c.ending ≠ .ok then s
      else
        let new := ds.zipIdx.filterMap fun d => if c.puts.contains d.2 then none else d.1.map fun g => (d.2, g)
        let all := ds.all Option.isSome
        let n := 128 * (c.puts.length + new.length)
        let c := { c with done := all, puts := c.puts ++ new.map (·.1), cnt := { c.cnt with rdBytes := n, wrBytes := n } }
        let ve := (x.cluster k).ve
        s.modPart p fun x =>
          match vopDst .mld c.hdr o c.off with
          | some d => (new.foldl (fun x g => x.spWrite (d.1 + 128 * g.1) (granuleBytes g.2)) x).modCluster k fun cl =>
              { cl with ve := { cl.ve with running := [c] } }
          | none =>
            let bytes := ds.flatMap fun d => granuleBytes (d.getD 0#1024)
            let pass := if all then (vopRun .mld (vopArgs s ve c o) bytes ⟨x.sp, ve.pass, [], .zero, none⟩).pass else ve.pass
            x.modCluster k fun cl => { cl with ve := { cl.ve with running := [c], pass := pass } }
    | _, _ => s
  | [] => s

/-! ## Starting a VOP -/

/-- A VOP that may not start (R152, R163, R181): a run misaligned, past the end or in a group of kind 0, an empty pass register, an MLD
address that is not a granule of memory or scratchpad space (R247). -/
def vopBad (s : State) (p : Nat) (ve : Ve) (op : VOp) (c : RunCmd) (o : VecOps) : Bool :=
  (vopRuns op c.hdr o c.off).any (fun r => s.badOperand p r.1 r.2 32) || (vopReadsPass op o && ve.pass.isNone) ||
    (op = .mld && ((mldAddr o).toNat % 128 ≠ 0 || !gaLayoutOk (mldAddr o) || 2 ≤ gaSpace (mldAddr o)))

/-- The line writes of bytes from a scratchpad offset, each within one line of 256 B (R171). -/
def lineWrites : Nat → Nat → List Byte → List (List (Nat × List Byte))
  | 0, _, _ => []
  | fuel + 1, off, bytes =>
    if bytes.isEmpty then []
    else
      let n := 256 - off % 256
      [(off, bytes.take n)] :: lineWrites fuel (off + n) (bytes.drop n)

/-- A VOP other than MLD runs (R150 to R160): its results, whose lines reach the scratchpad while it runs (R278), its counts, its summary for the
end. -/
def runVop (s : State) (p k : Nat) (op : VOp) (c : RunCmd) (o : VecOps) : State :=
  let x := s.part p
  let ve := (x.cluster k).ve
  let srcs := vopSources op c.hdr o c.off
  let bad := (srcs.find? fun r => x.badIn r.1 r.2)
  let cyc := op.cycles o.count.toNat o.imm.toNat
  match bad with
  | some r =>
    let c := { c with startAt := some s.ftOr0, done := true, cnt := { c.cnt with busy := cyc }, ending := readEnd p s.me r.1 }
    s.modPart p fun x => x.modCluster k fun cl =>
      { cl with ve := { cl.ve with queue := cl.ve.queue.filter fun q => q.serial ≠ c.serial, running := [c] } }
  | none =>
    let a := vopArgs s ve c o
    let r := vopRun op a [] ⟨x.sp, ve.pass, [], .zero, none⟩
    let sum := vopSummary op a (vopSumkind o) ve.st r
    let dst := vopDst op c.hdr o c.off
    let lines := match dst with
      | some d => lineWrites (d.2 / 256 + 2) d.1 (r.sp.readN d.1 d.2)
      | none => []
    let c := { c with startAt := some s.ftOr0, done := true, summary := sum, lines := lines,
                      cnt := { c.cnt with busy := cyc, st := r.st, rdBytes := (srcs.map (·.2)).sum, wrBytes := (dst.map (·.2)).getD 0 } }
    s.modPart p fun x =>
      x.modCluster k fun cl =>
        { cl with ve := { cl.ve with queue := cl.ve.queue.filter fun q => q.serial ≠ c.serial, running := [c], pass := r.pass,
                                     st := (cl.ve.st.add r.st).saturated } }

/-- The VOP at the head of a VE's queue starts when the VE runs none (R161). -/
def startVe (s : State) (p k : Nat) : State :=
  let x := s.part p
  let ve := (x.cluster k).ve
  match ve.queue, ve.running with
  | c :: _, [] =>
    if x.inEngReset (veCode k) then s
    else match c.kind, c.args with
      | .vop op, .vec o =>
        if vopBad s p ve op c o then s.expireCmd p (veCode k) c.hdr.cls
        else if op = .mld then startMld s p k c o
        else runVop s p k op c o
      | _, _ => s
  | _, _ => s

/-- A completed VOP leaves its VE and writes its summary slot (R154). -/
def Ve.finish (ve : Ve) (c : RunCmd) : Ve :=
  let ve := { ve with running := ve.running.filter fun r => r.serial ≠ c.serial }
  match c.summary, c.args with
  | some v, .vec o => { ve with slots := ve.slots.setIfInBounds o.sumslot.toNat v }
  | _, _ => ve

/-! ## CINV -/

/-- Does a CINV cover a granule (R275)? -/
def cinvCovers (o : DeOps) (g : Nat) : Bool :=
  o.len = 0#32 || (gaGranule o.addrA ≤ g && g < gaGranule o.addrA + o.len.toNat)

/-- Cycles of a CINV (R275). -/
def cinvCycles (o : DeOps) : Nat := if o.len = 0#32 then 4096 else (o.len.toNat + 15) / 16 + 8

/-- Granules of memory-space fills in flight that MLDs of a partition wait for. -/
def Part.fills (x : Part) : List Nat :=
  let serials := (List.range 4).flatMap fun k => ((x.cluster k).ve.running.filter fun c => c.kind = .vop .mld).map (·.serial)
  ((x.de.sendq ++ x.de.inflight).filter fun r => serials.contains r.serial && gaSpace r.pkt.addr = 0).map fun r => gaGranule r.pkt.addr

/-- The covered lines of a die cache dropped, and the covered fills in flight not kept (R275, R276). -/
def Part.dropLines (x : Part) (o : DeOps) : Part :=
  { x with dcache := { x.dcache with lines := x.dcache.lines.filter fun l => !cinvCovers o l.1,
                                     noKeep := x.dcache.noKeep ++ x.fills.filter fun g => cinvCovers o g && !x.dcache.noKeep.contains g } }

/-- The CINV at the head of the die cache's queue starts: covered lines are dropped, covered fills in flight are not kept (R275). -/
def startCinv (s : State) (p : Nat) : State :=
  let x := s.part p
  match x.dcache.queue, x.dcache.running with
  | c :: q, [] =>
    if x.inEngReset dcacheCode then s
    else match c.args with
      | .de o =>
        let c := { c with startAt := some s.ftOr0, done := true, cnt := { c.cnt with busy := cinvCycles o } }
        s.modPart p fun x => (({ x with dcache := { x.dcache with queue := q, running := [c] } } : Part)).dropLines o
      | _ => s
  | _, _ => s

end Sys2Proof.Machine
end

