-- ==== Sys2Proof/Machine/Dma.lean ====
section
/-! DEFINITION. Dma.lean: the requests of a DE: resolving homes, sending within its limits, handling every answer (spec/10 R250 to R259,
spec/12 R305, R307, R308), and the plans of DCOPY, DATOM and DSIGNAL. -/
namespace Sys2Proof.Machine

/-! ## Resolving (R250, R252) -/

/-- The home cache with an entry; a full cache of 4,096 entries drops its lowest block. -/
def cacheHome (c : SMap (BitVec 32)) (b : Nat) (e : BitVec 32) : SMap (BitVec 32) :=
  SMap.insert (if c.length < 4096 then c else c.drop 1) b e

/-- What resolving an address comes to: the module to ask, an address that has none, a class 1 read of the directory copy that must wait for a
partition in reset, or one that was uncorrectable. -/
inductive Resolved where
  | home (m : BitVec 10)
  | absent
  | wait
  | bad
deriving DecidableEq, Repr

/-- The directory copy's entry of a block read in its frame (R250): whether the read waits (R471), and whether it was uncorrectable, which fences the
copy's own block (R244). -/
def State.readEntry (s : State) (b : Nat) : State × Option Bool :=
  match s.ownDir, s.dirAddr b with
  | some e, some a =>
    let own := e.blockBase.toNat + 4 * b / blockBytes
    if s.frameHeld (a / blockBytes) then (s, none)
    else if s.mem.fenced.contains own then (s, some false)
    else match s.readGranule (a / blockBytes) (a % blockBytes / 128) [] 0 with
      | (s, some _) => (s, some true)
      | (s, none) => (s.fence own, some false)
  | _, _ => (s, some true)

/-- The module to which a request goes: by the home cache, filled from the directory copy with a class 1 read, for memory; the module its address
names for scratchpads and semaphores (R247, R250, R252). The blocks of the copy itself resolve through the placement table (R249). -/
def State.resolve (s : State) (p : Nat) (a : GAddr) : State × Resolved :=
  if gaSpace a = 0 then
    let b := gaBlock a
    match SMap.find (s.part p).de.homeCache b with
    | some e => (s, .home (dirModule e))
    | none =>
      match if s.useOf b = 6 then (s, some true) else s.readEntry b with
      | (s, none) => (s, .wait)
      | (s, some false) => (s, .bad)
      | (s, some true) =>
        match s.homeOf b with
        | none => (s, .absent)
        | some h =>
          (s.modPart p fun x => { x with de := { x.de with homeCache := cacheHome x.de.homeCache b (dirMake false h.1 (BitVec.ofNat 20 h.2)) } },
            .home h.1)
  else if gaLayoutOk a && gaSpace a ≤ 2 && gaModule a < s.size then (s, .home (BitVec.ofNat 10 (gaModule a)))
  else (s, .absent)

/-! ## Answers (R253, R307) -/

/-- The engine code and command of a serial number. -/
def Part.findCmd (x : Part) (serial : Nat) : Option (Nat × RunCmd) :=
  (engineCodes.flatMap fun e => (x.unitCmds (unitOf e)).map fun c => (e, c)).find? fun c => c.2.serial = serial

/-- A command ends as it must when no engine reset follows: UNCORRECTABLE, HOME_LOST or REFUSED in reset (Table 10.6). -/
def State.endCmd (s : State) (p serial : Nat) (e : CmdEnd) : State :=
  match (s.part p).findCmd serial with
  | some (eng, c) =>
    if c.ending = .ok then s.modPart p fun x => x.modCmd (unitOf eng) serial fun c => { c with ending := e, done := true } else s
  | none => s

/-- A command is handled as one whose timeout has expired (Table 10.6, ADDRESS_ERROR). -/
def State.failCmd (s : State) (p serial : Nat) : State :=
  match (s.part p).findCmd serial with
  | some (eng, c) => s.expireCmd p eng c.hdr.cls
  | none => s

/-- Is a scratchpad address in a group of kind 0 of its partition, as the plate lays it out (R181)? -/
def State.plateKindZero (s : State) (a : GAddr) : Bool :=
  gaSpace a = 1 &&
    match s.boot.plate.bind fun pl => pl.scratch.find? fun r => r.module.toNat = gaModule a && r.part.toNat = gaPart a with
    | some r => ((r.groups[groupOf (gaSpOff a)]?).map fun g => g.kind.toNat).getD 0 == 0
    | none => false

/-- Granules that a read returned, kept by granule number. -/
def keepGranules (got : SMap Granule) (a : GAddr) (ds : List Granule) : SMap Granule :=
  ds.zipIdx.foldl (fun m d => SMap.insert m (gaGranule a + d.2) d.1) got

/-- A read's data delivered to its command; an MLD's memory fills are kept in the die cache (R274). -/
def State.deliver (s : State) (p : Nat) (r : DeReq) (ds : List Granule) : State :=
  match (s.part p).findCmd r.serial with
  | some (eng, c) =>
    let s := s.modPart p fun x => x.modCmd (unitOf eng) r.serial fun c => { c with got := keepGranules c.got r.pkt.addr ds }
    if c.kind = .vop .mld && gaSpace r.pkt.addr = 0 then
      ds.zipIdx.foldl (fun s d => s.fillLine p (gaGranule r.pkt.addr + d.2) d.1) s
    else s
  | none => s

/-- A codebook fetch that met an error is given up, so that a command that still needs the record fetches it anew. -/
def Part.dropFetch (x : Part) (r : DeReq) : Part :=
  match r.use with
  | .codebook a => { x with de := { x.de with bookFetch := x.de.bookFetch.filter fun f => f.1 ≠ a } }
  | _ => x

/-- A request put at the front of what is still to be sent. -/
def Part.resend (x : Part) (r : DeReq) : Part := { x with de := { x.de with sendq := r :: x.de.sendq } }

/-- The requester's handling of an answer (Table 10.6, Table 12.6). The request is no longer in flight. -/
def State.deAnswer (s : State) (p : Nat) (r : DeReq) (resp : Packet) : State :=
  match resp.status.toNat with
  | 0 =>
    match r.use with
    | .gather => s.deliver p r resp.payload
    | .atom slot => s.modPart p fun x => x.spWrite slot (leBytes 8 (resp.arg.toNat % 2 ^ 64))
    | .codebook a =>
      s.modPart p fun x => { x with de := { x.de with bookFetch := x.de.bookFetch.map fun f =>
        if f.1 = a then (f.1, keepGranules f.2 r.pkt.addr resp.payload) else f } }
    | .write | .signal => s
  | 1 =>
    let s := s.count ⟨0x0120, p, deCode, 0⟩
    if r.moves ≥ 8 then s.failCmd p r.serial
    else s.modPart p fun x => x.resend { r with moves := r.moves + 1, ld := none,
                                                pkt := { r.pkt with dst := BitVec.ofNat 10 (bitsOf resp.arg.toNat 73 64) } }
  | 2 => s.failCmd p r.serial
  | 3 => if s.plateKindZero r.pkt.addr then s.failCmd p r.serial else s.endCmd p r.serial .refused
  | 6 => s.modPart p fun x => x.resend { r with ld := none }
  | _ => (s.modPart p fun x => x.dropFetch r).endCmd p r.serial (.uncorrectable (r.pkt.addr.toNat + 128 * (resp.arg.toNat % 8)))

/-! ## Sending (R14, R19, R259, R269, R305) -/

/-- Remote requests that a link die counts (R19). -/
def State.outstanding (s : State) (ld : Nat) : Nat :=
  ((List.range 16).map fun p => ((s.part p).de.inflight.filter fun r => r.ld = some ld).length).sum

/-- A write or atomic, whose granule nothing of the same DE may pass (R269). -/
def DeReq.orders (r : DeReq) : Bool := r.pkt.type = 2#8 || r.pkt.type = 3#8 || r.pkt.type = 4#8

/-- Does a granule lie in a run of n granules? -/
def inRun (g : Nat) (a : GAddr) (n : Nat) : Bool := gaGranule a ≤ g && g < gaGranule a + n

/-- May a DE command whose work is not done still write a granule? Exact for DCOPY and DATOM; any granule of the memory space for the commands that
write there, and of its own scratchpad for DWALK (R269; notes/assumptions/68). -/
def RunCmd.mayWrite (c : RunCmd) (me : BitVec 10) (p g : Nat) : Bool :=
  let a := granuleAddr g
  match c.kind, c.args with
  | .dcopy, .de o => inRun g o.addrB o.len.toNat
  | .datom _, .de o => inRun g o.addrA 1
  | .dwalk, _ => gaSpace a = 1 && gaModule a = me.toNat && gaPart a = p
  | .dsignal, _ => false
  | _, _ => gaSpace a = 0

/-- May a DE command whose work is not done still read a granule? -/
def RunCmd.mayRead (c : RunCmd) (g : Nat) : Bool :=
  match c.kind, c.args with
  | .dcopy, .de o => inRun g o.addrA o.len.toNat
  | .datom _, .de o => inRun g o.addrA 1
  | .dsignal, _ => false
  | _, _ => gaSpace (granuleAddr g) = 0

/-- May a request of a DE command be sent (R269)? Not while an earlier write or atomic of the DE to its granule is unacknowledged, nor before an
earlier access that it must not overtake: one that is still to be sent, or that a command issued earlier may still make. Signals name no granule, a
record for the expander is read for no one command (R211), and MLD fills are no accesses of the DE. -/
def Part.mayPass (x : Part) (me : BitVec 10) (p : Nat) (r : DeReq) : Bool :=
  let g := gaGranule r.pkt.addr
  let ofDe (q : DeReq) : Bool := x.de.running.any fun c => c.serial = q.serial
  let record := match r.use with
    | .codebook _ => true
    | _ => false
  r.pkt.type = 5#8 || !ofDe r ||
    ((x.de.inflight.all fun b => !(b.orders && gaGranule b.pkt.addr = g)) &&
     ((x.de.sendq.takeWhile (· ≠ r)).all fun b => !(ofDe b && (b.orders || r.orders) && gaGranule b.pkt.addr = g)) &&
     (record || x.de.running.all fun c =>
       r.serial ≤ c.serial || c.done || c.ending ≠ .ok || !(c.mayWrite me p g || (r.orders && c.mayRead g))))

/-- What sending one request comes to. -/
inductive Sent where
  | gone (s : State)
  | stuck

/-- A request in flight. -/
def Part.fly (x : Part) (r : DeReq) : Part := { x with de := { x.de with inflight := x.de.inflight ++ [r] } }

/-- A request taken from what is still to be sent. -/
def Part.unsend (x : Part) (r : DeReq) : Part := { x with de := { x.de with sendq := x.de.sendq.erase r } }

/-- The transaction number of a request about to be sent is used up. -/
def Part.useTxn (x : Part) : Part := { x with de := { x.de with nextTxn := x.de.nextTxn + 1#16 } }

/-- One request sent: served here at once, or into the fabric through the link die of its first hop (R252, R305). -/
def State.sendReq (s : State) (p : Nat) (r0 : DeReq) : Sent :=
  let h := if r0.moves = 0 then s.resolve p r0.pkt.addr else (s, .home r0.pkt.dst)
  let fill (m : BitVec 10) : DeReq := { r0 with pkt := { r0.pkt with txn := (s.part p).de.nextTxn, gen := (s.part p).de.fgen, dst := m } }
  let out := h.1.modPart p fun x => (x.unsend r0).useTxn
  match h.2 with
  | .wait => .stuck
  | .bad => .gone (out.deAnswer p (fill s.me) ((fill s.me).pkt.reply s.me 4 0 []))
  | .absent => .gone (out.deAnswer p (fill s.me) ((fill s.me).pkt.reply s.me 2 0 []))
  | .home m =>
    let r := fill m
    if m = s.me then
      match out.serve r.pkt [] with
      | .answer s resp => .gone (s.deAnswer p r resp)
      | .wait s w => .gone ((s.modPart p fun x => x.fly r).wait none r.pkt w)
    else
      match s.route s.me.toNat m.toNat with
      | none => .gone (out.deAnswer p r (r.pkt.reply s.me 5 0 []))
      | some j =>
        let ld := s.physicalFor j r.pkt / 4
        if s.outstanding ld ≥ 8192 then .stuck
        else match out.sendPacket r.pkt with
          | .noRoute s => .gone (s.deAnswer p r (r.pkt.reply s.me 5 0 []))
          | o => .gone (o.state.modPart p fun x => x.fly { r with ld := some ld })

/-- Requests tried one after another: each is sent if fewer than 2,048 transactions are in flight (R14) and nothing before it holds it. What is
held holds the rest of its run, which goes in ascending order (R259); a link die at its limit makes the DE wait (R305). -/
def pumpList (p : Nat) (held : List (Nat × TxUse)) : List DeReq → State → State
  | [], s => s
  | r :: rest, s =>
    let x := s.part p
    let run := (r.serial, r.use)
    if x.de.inflight.length ≥ 2048 || x.inEngReset deCode then s
    else if held.contains run then pumpList p held rest s
    else if x.mayPass s.me p r then
      match s.sendReq p r with
      | .stuck => s
      | .gone s => pumpList p held rest s
    else pumpList p (run :: held) rest s

/-- A DE tries each request it has to send once, in order; one that must be sent again is tried in a later round. -/
def State.pump (s : State) (p : Nat) : State := pumpList p [] (s.part p).de.sendq s

/-- Every DE of the module tries what it has to send: a response has freed a link die's count (R305). -/
def State.pumpAll (s : State) : State := (List.range s.label.variant.parts).foldl State.pump s

/-! ## Plans -/

/-- What a DE command still has to do: read granules, act and be done, be handled as an expired timeout, end UNCORRECTABLE on a
scratchpad word, or wait. -/
inductive DePlan where
  | need (gs : List Nat)
  | act (f : State → State)
  | fail
  | bad (off : Nat)
  | hold

/-- Granules a command has not read yet. -/
def RunCmd.lacks (c : RunCmd) (gs : List Nat) : List Nat := gs.filter fun g => (SMap.find c.got g).isNone

/-- The bytes of granules that a command has read, from a byte address. -/
def RunCmd.bytesAt (c : RunCmd) (a n : Nat) : List Byte :=
  let g0 := a / 128
  let g1 := (a + n + 127) / 128
  let all := (List.range (g1 - g0)).flatMap fun i => granuleBytes (SMap.get c.got (g0 + i) 0#1024)
  (all.drop (a % 128)).take n

/-- Priority class of a command's writes (Table 9.6). -/
def writeClass (cls : BitVec 4) : Nat := if cls.toNat ≤ 3 then 2 else 3

/-- A write of whole granules of this command. -/
def State.queueWrite (s : State) (p : Nat) (c : RunCmd) (cls g : Nat) (d : Granule) : State :=
  s.modPart p fun x => x.enqueue (s.request p 2 cls (granuleAddr g) 0#120 [d]) c.serial .write

/-- DCOPY (R72, R259): every granule is read, then written; addresses that are no whole granules are refused as ADDRESS_ERROR. -/
def planDcopy (p : Nat) (c : RunCmd) (o : DeOps) : DePlan :=
  let n := o.len.toNat
  let gs := (List.range n).map fun i => gaGranule o.addrA + i
  let miss := c.lacks gs
  if n ≠ 0 && (o.addrA.toNat % 128 ≠ 0 || o.addrB.toNat % 128 ≠ 0) then .fail
  else if !miss.isEmpty then .need miss
  else .act fun s => gs.zipIdx.foldl (fun s g =>
    s.queueWrite p c (writeClass c.hdr.cls) (gaGranule o.addrB + g.2) (SMap.get c.got g.1 0#1024)) s

/-- The scratchpad offset that ADDR_B names, the ROWLOOP offset added (R74, Table 11.1). -/
def RunCmd.slotOff (c : RunCmd) (o : DeOps) : Nat := o.addrB.toNat % 2 ^ 26 + c.off

/-- ARG of an ATOM (Table 12.5). -/
def atomArg (op : AtomOp) (v : BitVec 64) : BitVec 120 := BitVec.ofNat 120 (op.subop * 2 ^ 112 + v.toNat * 2 ^ 48)

/-- DATOM (R280, R281): the atomic is sent to its home, CAS64 with the compare value of its result slot. -/
def planDatom (s : State) (p : Nat) (c : RunCmd) (o : DeOps) (op : AtomOp) : DePlan :=
  let slot := c.slotOff o
  if spBytes < slot + 8 || slot % 8 ≠ 0 || s.kindZero p slot 8 then .fail
  else if op = .cas64 && (s.part p).badIn slot 8 then .bad slot
  else .act fun s =>
    let pay := if op = .cas64 then [granuleOf ((s.part p).sp.readN slot 8)] else []
    s.modPart p fun x => x.enqueue (s.request p 4 (readClass c.hdr.cls) o.addrA (atomArg op o.value) pay) c.serial (.atom slot)

/-- DSIGNAL (R78, R79): its signal is sent once every earlier write of the DE is acknowledged. -/
def planDsignal (s : State) (p : Nat) (c : RunCmd) (o : DeOps) : DePlan :=
  if (s.part p).held deCode c.serial then .hold
  else
    let g : Signal := ⟨BitVec.ofNat 13 (gaSem o.addrA), s.su.work, o.value.truncate 16⟩
    .act fun s => s.modPart p fun x => x.enqueue (s.request p 5 0 o.addrA (sigArg g) []) c.serial .signal

end Sys2Proof.Machine
end

