-- ==== Sys2Proof/Machine/Stipple.lean ====
section
/-! DEFINITION. Stipple.lean: the structures and the codec of spec/08 as functions on plain data: addresses of pages, slabs, staging
and sketch (R188 to R192, R199), the stipple codec (R196 to R198), representatives (R200) and head-area tiles (R204, R207). -/
namespace Sys2Proof.Machine

/-! ## Geometry -/

/-- Codes per vector at a KV_RATE code: 16r = 8, 16 or 32 (Tables 8.2, 3.10). -/
def codesPerVec (rate : Nat) : Nat := 8 <<< min rate 2

/-- Elements per codeword, d = 8 / r (R196). -/
def codeDim (rate : Nat) : Nat := 128 / codesPerVec rate

/-- Bytes a token takes in a slab, 16r + 2 (R191). -/
def tokenBytes (rate : Nat) : Nat := codesPerVec rate + 2

/-- The numbers that fix a session's structures: layers, KV heads, page size in tokens, rate code, R and PAGES_ALLOC. -/
structure KvGeom where
  layers : Nat
  heads  : Nat
  pg     : Nat
  rate   : Nat
  reps   : Nat
  alloc  : Nat
deriving DecidableEq, Repr

/-- Page bytes F (R189). -/
def KvGeom.pageBytes (g : KvGeom) : Nat := g.layers * g.heads * 2 * g.pg * tokenBytes g.rate

/-- Home blocks of a page frame (R189). -/
def KvGeom.frameBlocks (g : KvGeom) : Nat := (g.pageBytes + 2 ^ 21 - 1) / 2 ^ 21

/-- Slab index of (layer, head, K or V) (R191). -/
def KvGeom.slab (g : KvGeom) (l h kv : Nat) : Nat := (l * g.heads + h) * 2 + kv

/-- Bytes of a slab (R191). -/
def KvGeom.slabBytes (g : KvGeom) : Nat := g.pg * tokenBytes g.rate

/-- Tokens of a stipple block (R191). -/
def KvGeom.tb (g : KvGeom) : Nat := min g.pg 128

/-- Byte address of block b of slab s of page p (R191). -/
def KvGeom.blockAddr (g : KvGeom) (p s b : Nat) : Nat := p * 2 ^ 21 + s * g.slabBytes + b * g.tb * tokenBytes g.rate

/-- Byte addresses of the codes and of the norm of token t of a page's slab (R191). -/
def KvGeom.tokenAddr (g : KvGeom) (p s t : Nat) : Nat × Nat :=
  let b := g.blockAddr p s (t / g.tb)
  (b + (t % g.tb) * codesPerVec g.rate, b + g.tb * codesPerVec g.rate + 2 * (t % g.tb))

/-- Staging capacity Cs (R192). -/
def stagingCap (pg chunk : Nat) : Nat := pg * ((pg - 1 + max chunk 16 + pg - 1) / pg)

/-- Bytes of a staging buffer: the KV header and one plane of Cs vectors for each slab index (R192). -/
def KvGeom.stagingBytes (g : KvGeom) (cs : Nat) : Nat := 128 + g.layers * g.heads * 2 * cs * 256

/-- Address of the staged vector of position x for slab index s (R192). -/
def stagedAddr (staging cs s x : Nat) : Nat := staging + 128 + s * cs * 256 + (x % cs) * 256

/-- Q of a sketch slab (R199). -/
def KvGeom.q (g : KvGeom) : Nat := 128 * ((g.alloc * g.reps + 127) / 128)

/-- Z, the bytes of a sketch slab (R199). -/
def KvGeom.sketchBytes (g : KvGeom) : Nat := 128 + tokenBytes g.rate * g.q

/-- Base of the sketch slab of (layer, head) (R199). -/
def KvGeom.sketchSlab (g : KvGeom) (sketch l h : Nat) : Nat := sketch + (l * g.heads + h) * g.sketchBytes

/-- Offset of the code at position j of representative k of page i, and of that representative's gain (R199). -/
def KvGeom.sketchCode (g : KvGeom) (i k j : Nat) : Nat := 128 + j * g.q + i * g.reps + k
/-- Offset of a representative's gain (R199). -/
def KvGeom.sketchGain (g : KvGeom) (i k : Nat) : Nat := 128 + codesPerVec g.rate * g.q + 2 * (i * g.reps + k)

/-- Bytes of a codebook record at a rate: 4,096 / r (R196). -/
def codebookBytes (rate : Nat) : Nat := 8192 >>> min rate 2

/-- Tokens a row stages, U (R193), by STAGE. -/
def stagedTokens (stage chunk drafts : Nat) : Nat :=
  match stage with
  | 0 | 1 | 2 => chunk
  | 3 => 1 + drafts
  | _ => 0

/-- A row's committed end E (R194). -/
def committedEnd (stage position u : Nat) : Nat := if stage ≤ 2 then position + u else position

/-! ## The codec -/

/-- BF16 elements of a byte string widened to FP32 (R135). -/
def bf16s (bytes : List Byte) : List Word32 :=
  (chunksOf 2 bytes.length bytes).map fun w => BitVec.ofNat 32 (leNat w * 65536)

/-- The 256 codewords of a codebook record (R196). -/
def codewords (rate : Nat) (record : List Byte) : List (List Word32) := chunksOf (codeDim rate) 256 (bf16s record)

/-- A stored vector: its codes and its FP16 norm. -/
structure Stored where
  codes : List Nat
  norm  : Nat
deriving DecidableEq, Repr

/-- The norm of a void vector (R197). -/
def voidNorm : Nat := 0x7E00

/-- Is a stored vector void (R197, R198)? -/
def Stored.void (s : Stored) : Bool := s.norm = voidNorm

/-- A sum of squares in ascending order, each step rounded. -/
def sumSquares (v : List Word32) : Word32 :=
  match v with
  | [] => 0#32
  | x :: r => r.foldl (fun t y => (fAdd t (fMul y y).val).val) (fMul x x).val

/-- The distance of step 4 of R197. -/
def distance (u w : List Word32) : Word32 := sumSquares (List.zipWith (fun a b => (fSub a b).val) u w)

/-- The codeword at least distance; of equal distances the lowest. -/
def nearestCode (u : List Word32) (ws : List (List Word32)) : Nat :=
  match ws with
  | [] => 0
  | w :: r =>
    (r.zipIdx.foldl (fun best p =>
      let d := distance u p.1
      if Cmp.lt.f32 d best.1 then (d, p.2 + 1) else best) (distance u w, 0)).2

/-- The encoding of a vector of 128 FP32 values (R197): the stored vector, and whether it is void. -/
def encodeVec (rate : Nat) (book : List (List Word32)) (v : List Word32) : Stored × Bool :=
  let n := (fSqrt (sumSquares v)).val
  if v.any (fun x => magBits x ≥ 0x7F800000) || Cmp.gt.f32 n 0x477FE000#32 then
    (⟨List.replicate (codesPerVec rate) 0, voidNorm⟩, true)
  else if magBits n = 0 then (⟨List.replicate (codesPerVec rate) 0, 0⟩, false)
  else
    let u := v.map fun x => (fDiv x n).val
    (⟨(chunksOf (codeDim rate) (codesPerVec rate) u).map fun s => nearestCode s book, (narrow .fp16 n).1⟩, false)

/-- The decoded value of a stored vector that is not void (R198). -/
def decodeVec (book : List (List Word32)) (s : Stored) : List Word32 :=
  let n := (widen .fp16 s.norm).val
  (s.codes.map fun c => ((book[c]?).getD []).map fun w => (fMul n w).val).flatten

/-- Two vectors added element by element. -/
def addVec (a b : List Word32) : List Word32 := List.zipWith (fun x y => (fAdd x y).val) a b

/-- One representative (R200): the decoded vectors of a span added in order, void ones skipped, times R / Pg, encoded. -/
def representative (rate : Nat) (book : List (List Word32)) (scale : Word32) (span : List Stored) : Stored × Bool :=
  let sum := (span.filter fun s => !s.void).foldl (fun t s => addVec t (decodeVec book s)) (List.replicate 128 0#32)
  encodeVec rate book (sum.map fun x => (fMul x scale).val)

/-- The R representatives of a page's slab (R200), from its stored vectors in ascending position. -/
def representatives (g : KvGeom) (book : List (List Word32)) (vs : List Stored) : List (Stored × Bool) :=
  let span := g.pg / g.reps
  let scale := (fl32 (.fin false g.reps (-(Nat.log2 g.pg : Int)))).val
  (chunksOf span g.reps vs).map (representative g.rate book scale)

/-- A slab's bytes from its stored vectors: block by block, codes then norms (R191). -/
def slabBytesOf (g : KvGeom) (vs : List Stored) : List Byte :=
  (chunksOf g.tb (g.pg / g.tb) vs).flatMap fun b =>
    (b.flatMap fun s => s.codes.map (BitVec.ofNat 8)) ++ b.flatMap fun s => leBytes 2 s.norm

/-! ## Head areas (Table 8.6) -/

/-- Bytes of one token tile in an expansion format (R204). -/
def tokenTileBytes (fmt : Nat) : Nat := tileBytes fmt 128 128

/-- Size A of a head area with N slots (R204). -/
def headAreaBytes (n fmt : Nat) : Nat := 4096 + 4 * n + 2 * (n / 128) * tokenTileBytes fmt

/-- A 128 × 128 weight operand in an expansion format, blocks along the reduction index (R103, R207): its bytes and saturations. -/
def weightTile (fmt : Nat) (rows : List (List Word32)) : List Byte × Nat :=
  let col (j : Nat) : List Word32 := rows.map fun r => (r[j]?).getD 0#32
  if isMx fmt then
    let cols := (List.range 128).map fun j => (chunksOf 32 4 (col j)).map (mxBlock fmt)
    let codesByCol := cols.map fun bs => (bs.map (·.codes)).flatten
    let codes := (List.range 128).flatMap fun k => codesByCol.map fun col => (col[k]?).getD 0
    let scales := (List.range 4).flatMap fun r => cols.map fun bs => ((bs.map MxBlock.scale)[r]?).getD 0
    (packElems (elemBits fmt) codes ++ scales.map (BitVec.ofNat 8), ((cols.flatten).map (·.sats)).sum)
  else (packElems 16 (rows.flatten.map fun z => (narrow .bf16 z).1), 0)

/-- A slot of a head area: the token's position and its decoded key and value, or an unused or void slot. -/
structure Slot where
  position : Option Nat
  key      : List Word32
  value    : List Word32
deriving DecidableEq, Repr

/-- An unused slot: position −1 and +0 everywhere (R207). -/
def Slot.unused : Slot := ⟨none, List.replicate 128 0#32, List.replicate 128 0#32⟩

/-- Rows and columns of a 128 × 128 matrix exchanged. -/
def transpose128 (rows : List (List Word32)) : List (List Word32) :=
  (List.range 128).map fun j => rows.map fun r => (r[j]?).getD 0#32

/-- The position run, K tiles and V tiles of a head area from its slots (Table 8.6, R207), and the saturations met. -/
def headAreaBody (fmt : Nat) (slots : List Slot) : List Byte × Nat :=
  let pos := slots.flatMap fun s => leBytes 4 (match s.position with
    | some p => p
    | none => 0xFFFFFFFF)
  let groups := chunksOf 128 (slots.length / 128) slots
  let ks := groups.map fun g => weightTile fmt (transpose128 (g.map (·.key)))
  let vs := groups.map fun g => weightTile fmt (g.map (·.value))
  (pos ++ ks.flatMap (·.1) ++ vs.flatMap (·.1), (ks.map (·.2)).sum + (vs.map (·.2)).sum)

/-- Units of a walk (R206): each fetched page, then the staged range in pieces of up to 128 tokens; a unit's tokens as a count. -/
def unitSizes (pages : List Nat) (pg staged : Nat) : List Nat :=
  pages.map (fun _ => pg) ++ (List.range ((staged + 127) / 128)).map fun i => min 128 (staged - 128 * i)

/-- How many units of a pass fit in n slots, in order. -/
def unitsThatFit : Nat → List Nat → Nat
  | _, [] => 0
  | n, u :: r => if u ≤ n then 1 + unitsThatFit (n - u) r else 0

/-- The pages of a fetch set, ascending (R205). -/
def fetchSet (all : Bool) (pageCount top recent ringSize ringIndex : Nat) (sel : List Nat) : List Nat :=
  if all then (List.range pageCount).filter fun i => i % ringSize = ringIndex
  else (List.range pageCount).filter fun i => i = 0 || pageCount - recent ≤ i || (sel.take top).contains i

end Sys2Proof.Machine
end

