-- ==== Sys2Proof/Machine/Kv.lean ====
section
/-! DEFINITION. Kv.lean: the plans of the attention commands (spec/08): DSTAGE (R193), DSEAL (R194, R197, R200, R201), sketch upkeep (R202)
and DWALK (R204 to R209), with the codebook cache of the expander (R211). -/
namespace Sys2Proof.Machine

/-! ## Rows of a command -/

/-- A row that a DE command acts on: its number, the row, and where its scratchpad area begins. -/
structure RowArea where
  index : Nat
  row   : BatchRow
  base  : Nat

/-- The rows of a DE row command: the current row under ROWREL, else ROW_COUNT rows from ROW_FIRST (R74), with areas `stride` bytes
apart (R204). -/
def State.rowAreas (s : State) (c : RunCmd) (o : DeOps) (stride : Nat) : List RowArea :=
  let rows := s.rows c.inst
  let at_ (r base : Nat) : List RowArea :=
    match rows[r]? with
    | some x => [⟨r, x, base⟩]
    | none => []
  if c.hdr.rowrel then
    match c.row with
    | some r => at_ r (c.slotOff o)
    | none => []
  else (List.range o.rowCount.toNat).flatMap fun i => at_ (o.rowFirst.toNat + i) (c.slotOff o + i * stride)

/-- Heads of a command, each with its count from HEAD_FIRST. -/
def deHeads (o : DeOps) : List (Nat × Nat) := (List.range o.headCount.toNat).map fun e => (e, o.headFirst.toNat + e)

/-- Tokens that a row stages (R193). -/
def rowTokens (r : BatchRow) : Nat := stagedTokens r.stage.toNat r.chunk.toNat r.drafts.toNat

/-- Page size of a row in tokens. -/
def rowPg (r : BatchRow) : Nat := 2 ^ r.pageLog2.toNat

/-- The KV header at STAGING (Table 8.3): sketch address, PAGES_ALLOC and Cs. -/
structure KvHeader where
  sketch : Nat
  alloc  : Nat
  cs     : Nat

/-- The KV header that a command has read. -/
def RunCmd.kvHeader (c : RunCmd) (r : BatchRow) : KvHeader :=
  let v := leNat (c.bytesAt r.staging.toNat 16)
  ⟨bitsOf v 127 72, bitsOf v 63 32, bitsOf v 31 0⟩

/-- The geometry of a row's structures. -/
def rowGeom (d : KvDesc) (r : BatchRow) (alloc : Nat) : KvGeom :=
  { layers := d.layers.toNat, heads := d.kvHeads.toNat, pg := rowPg r, rate := r.kvRate.toNat, reps := 2 ^ d.repsLog2.toNat, alloc := alloc }

/-- Granules that hold n bytes from an address. -/
def granulesOf (a n : Nat) : List Nat := (List.range ((a + n + 127) / 128 - a / 128)).map fun i => a / 128 + i

/-- Entry i of a page list that a command has read (R190). -/
def RunCmd.page (c : RunCmd) (r : BatchRow) (i : Nat) : Nat := leNat (c.bytesAt (r.pageList.toNat + 4 * i) 4)

/-- The codebook table of a rate (Table 8.1). -/
def KvDesc.codebooks (d : KvDesc) (rate : Nat) : Nat :=
  match rate with
  | 0 => d.cb05.toNat
  | 1 => d.cb1.toNat
  | _ => d.cb2.toNat

/-- The record of a slab index at a rate (R196). -/
def KvDesc.record (d : KvDesc) (rate slab : Nat) : Nat := d.codebooks rate + slab * codebookBytes rate

/-- The codewords of a record that a command has taken from the codebook cache. -/
def RunCmd.book (c : RunCmd) (rate a : Nat) : List (List Word32) := codewords rate (c.bytesAt a (codebookBytes rate))

/-! ## Vectors -/

/-- The staged vector at an address, as 128 FP32 values (R192). -/
def RunCmd.stagedVec (c : RunCmd) (a : Nat) : List Word32 := bf16s (c.bytesAt a 256)

/-- The stored vector of token t of slab s of page p (R191). -/
def RunCmd.stored (c : RunCmd) (g : KvGeom) (p s t : Nat) : Stored :=
  let a := g.tokenAddr p s t
  ⟨(c.bytesAt a.1 (codesPerVec g.rate)).map BitVec.toNat, leNat (c.bytesAt a.2 2)⟩

/-- Write n bytes from an address whole granule by whole granule, an address and length of whole granules. -/
def State.queueBytes (s : State) (p : Nat) (c : RunCmd) (cls a : Nat) (bytes : List Byte) : State :=
  (chunksOf 128 bytes.length bytes).zipIdx.foldl (fun s g => s.queueWrite p c cls (a / 128 + g.2) (granuleOf g.1)) s

/-- A byte-masked write of bytes within one granule (R201, R217). -/
def State.queueMasked (s : State) (p : Nat) (c : RunCmd) (a : Nat) (bytes : List Byte) : State :=
  let o := a % 128
  let data := granuleOf (List.replicate o 0#8 ++ bytes)
  let mask : Granule := BitVec.ofNat 1024 ((2 ^ bytes.length - 1) * 2 ^ o)
  s.modPart p fun x => x.enqueue (s.request p 3 2 (granuleAddr (a / 128)) 0#120 [data, mask]) c.serial .write

/-- Void vectors counted (R197, R207). -/
def State.countVoid (s : State) (p n : Nat) : State := s.count ⟨0x0122, p, deCode, 0⟩ n

/-! ## What every attention command needs first -/

/-- Does any area run past the scratchpad or into a group of kind 0 (R214, R181)? -/
def State.badAreas (s : State) (p : Nat) (as : List (Nat × Nat)) : Bool :=
  as.any fun a => spBytes < a.1 + a.2 || (a.2 ≠ 0 && s.kindZero p a.1 a.2)

/-- The first area with an uncorrectable word. -/
def Part.badArea (x : Part) (as : List (Nat × Nat)) : Option Nat := (as.find? fun a => x.badIn a.1 a.2).map (·.1)

/-- Bytes of a row's area of new vectors for its heads (R193). -/
def newBytes (o : DeOps) (r : BatchRow) : Nat := 512 * rowTokens r * o.headCount.toNat

/-- Offset, in a row's area, of the new vector i of head number e, K or V (R193). -/
def newVecOff (u e kv i : Nat) : Nat := e * 512 * u + kv * 256 * u + i * 256

/-! ## DSTAGE -/

/-- DSTAGE (R193): the rows' new vectors written into their staging slots. -/
def planDstage (s : State) (p : Nat) (c : RunCmd) (o : DeOps) : DePlan :=
  match s.kvDesc p c.inst with
  | none => .fail
  | some d =>
    let rows := s.rowAreas c o d.rowStride.toNat
    let areas := rows.map fun r => (r.base, newBytes o r.row)
    let miss := c.lacks (rows.map fun r => r.row.staging.toNat / 128)
    if s.badAreas p areas then .fail
    else if !miss.isEmpty then .need miss
    else match (s.part p).badArea areas with
      | some a => .bad a
      | none => .act fun s =>
        rows.foldl (fun s r =>
          let u := rowTokens r.row
          let h := c.kvHeader r.row
          let g := rowGeom d r.row h.alloc
          (deHeads o).foldl (fun s e => [0, 1].foldl (fun s kv => (List.range u).foldl (fun s i =>
            let v := (s.part p).sp.readN (r.base + newVecOff u e.1 kv i) 256
            s.queueBytes p c 2 (stagedAddr r.row.staging.toNat h.cs (g.slab c.hdr.layer.toNat e.2 kv) (r.row.position.toNat + i)) v) s) s) s) s

/-! ## DSEAL -/

/-- Pages that a row's DSEAL seals (R194). -/
def sealPages (r : BatchRow) : List Nat :=
  let e := committedEnd r.stage.toNat r.position.toNat (rowTokens r)
  (List.range (e / rowPg r)).filter fun i => r.pageCount.toNat ≤ i

/-- Positions of a page that DSEAL takes from staging (R194). -/
def fromStaging (r : BatchRow) (i : Nat) : List Nat :=
  ((List.range (rowPg r)).map fun t => i * rowPg r + t).filter fun x => x < r.position.toNat

/-- The scratchpad areas that a row's DSEAL reads: its own vectors in the pages it seals (R194). -/
def sealReads (o : DeOps) (r : RowArea) : List (Nat × Nat) :=
  let pos := r.row.position.toNat
  (sealPages r.row).flatMap fun i => (deHeads o).flatMap fun e => [0, 1].flatMap fun kv =>
    ((List.range (rowPg r.row)).filter fun t => pos ≤ i * rowPg r.row + t).map fun t =>
      (r.base + newVecOff (rowTokens r.row) e.1 kv (i * rowPg r.row + t - pos), 256)

/-- The vectors of page i of a row for one head, K or V: earlier positions from staging, the row's own from its area (R194). -/
def pageVectors (x : Part) (c : RunCmd) (r : RowArea) (h : KvHeader) (slab e kv i : Nat) : List (List Word32) :=
  let u := rowTokens r.row
  (List.range (rowPg r.row)).map fun t =>
    let pos := i * rowPg r.row + t
    if pos < r.row.position.toNat then c.stagedVec (stagedAddr r.row.staging.toNat h.cs slab pos)
    else bf16s (x.sp.readN (r.base + newVecOff u e kv (pos - r.row.position.toNat)) 256)

/-- The sketch entry of a page written with masked writes: codes by position, then gains (R199, R201). -/
def State.writeEntry (s : State) (p : Nat) (c : RunCmd) (g : KvGeom) (slab i : Nat) (reps : List Stored) : State :=
  let s := (List.range (codesPerVec g.rate)).foldl (fun s j =>
    s.queueMasked p c (slab + g.sketchCode i 0 j) (reps.map fun r => BitVec.ofNat 8 ((r.codes[j]?).getD 0))) s
  s.queueMasked p c (slab + g.sketchGain i 0) (reps.flatMap fun r => leBytes 2 r.norm)

/-- One slab of one page sealed: the stipple slab into its frame, and for keys the sketch entry (R194, R200). -/
def sealSlab (p : Nat) (c : RunCmd) (d : KvDesc) (r : RowArea) (i : Nat) (e : Nat × Nat) (kv : Nat) (s : State) : State :=
  let h := c.kvHeader r.row
  let g := rowGeom d r.row h.alloc
  let slab := g.slab c.hdr.layer.toNat e.2 kv
  let book := c.book g.rate (d.record g.rate slab)
  let vs := (pageVectors (s.part p) c r h slab e.1 kv i).map (encodeVec g.rate book)
  let s := s.countVoid p (vs.filter (·.2)).length
  let s := s.queueBytes p c 2 (g.blockAddr (c.page r.row i) slab 0) (slabBytesOf g (vs.map (·.1)))
  if kv = 0 then
    let reps := representatives g book (vs.map (·.1))
    (s.countVoid p (reps.filter (·.2)).length).writeEntry p c g (g.sketchSlab h.sketch c.hdr.layer.toNat e.2) i (reps.map (·.1))
  else s

/-- What a DE command still lacks from memory, or the codebook records it still lacks, or nothing. -/
inductive Lack where
  | granules (gs : List Nat)
  | records (as : List (Nat × Nat))
  | none

/-- The first lack of: granules, then records (addresses with their rate). -/
def RunCmd.lack (c : RunCmd) (gs : List Nat) (recs : List (Nat × Nat)) : Lack :=
  match c.lacks gs with
  | [] =>
    match recs.filter fun r => !(c.lacks (granulesOf r.1 (codebookBytes r.2))).isEmpty with
    | [] => .none
    | l => .records l
  | l => .granules l

/-- A plan of a command that needs codebooks: what it lacks, else what it does. -/
inductive KvPlan where
  | plain (p : DePlan)
  | records (as : List (Nat × Nat)) (blocks : List Nat)

/-- DSEAL (R194): full pages sealed, in ascending order, with their sketch entries. -/
def planDseal (s : State) (p : Nat) (c : RunCmd) (o : DeOps) : KvPlan :=
  match s.kvDesc p c.inst with
  | none => .plain .fail
  | some d =>
    let all := s.rowAreas c o d.rowStride.toNat
    let rows := all.filter fun r => !(sealPages r.row).isEmpty
    let hdrs := rows.map fun r => r.row.staging.toNat / 128
    let lists := rows.flatMap fun r => (sealPages r.row).map fun i => (r.row.pageList.toNat + 4 * i) / 128
    if s.badAreas p (all.map fun r => (r.base, newBytes o r.row)) then .plain .fail
    else match c.lacks (hdrs ++ lists).eraseDups with
      | _ :: _ => .plain (.need (c.lacks (hdrs ++ lists).eraseDups))
      | [] =>
        let staged := rows.flatMap fun r =>
          let h := c.kvHeader r.row
          let g := rowGeom d r.row h.alloc
          (sealPages r.row).flatMap fun i => (deHeads o).flatMap fun e => [0, 1].flatMap fun kv =>
            (fromStaging r.row i).flatMap fun x =>
              granulesOf (stagedAddr r.row.staging.toNat h.cs (g.slab c.hdr.layer.toNat e.2 kv) x) 256
        let recs := rows.flatMap fun r =>
          let g := rowGeom d r.row 0
          (deHeads o).flatMap fun e => [0, 1].map fun kv => (d.record g.rate (g.slab c.hdr.layer.toNat e.2 kv), g.rate)
        match c.lack staged recs.eraseDups with
        | .granules gs => .plain (.need gs)
        | .records as => .records as []
        | .none =>
          match (s.part p).badArea (rows.flatMap (sealReads o)) with
          | some a => .plain (.bad a)
          | none => .plain (.act fun s =>
            rows.foldl (fun s r => (sealPages r.row).foldl (fun s i => (deHeads o).foldl (fun s e => [0, 1].foldl (fun s kv =>
              sealSlab p c d r i e kv s) s) s) s) s)

/-! ## Sketch upkeep -/

/-- The header of a sketch slab (Table 8.5): CURSOR, GAP_HI, GAP_LO. -/
def RunCmd.slabHeader (c : RunCmd) (a : Nat) : Nat × Nat × Nat :=
  let v := leNat (c.bytesAt a 12)
  (bitsOf v 95 64, bitsOf v 63 32, bitsOf v 31 0)

/-- A slab header in its granule. -/
def slabHeaderGranule (cursor hi lo : Nat) : Granule := BitVec.ofNat 1024 (cursor * 2 ^ 64 + hi * 2 ^ 32 + lo)

/-- Pages that upkeep handles of one slab (R202); one that it comes to again after wrapping needs nothing more. -/
def upkeepPages (hdr : Nat × Nat × Nat) (pages pageCount : Nat) : List Nat :=
  if hdr.2.2 < hdr.2.1 then (List.range (min pages (hdr.2.1 - hdr.2.2))).map fun i => hdr.2.2 + i
  else if pageCount = 0 then []
  else (List.range (min pages pageCount)).map fun i => (hdr.1 + i) % pageCount

/-- The stored vectors of a page's slab. -/
def RunCmd.slabVectors (c : RunCmd) (g : KvGeom) (page slab : Nat) : List Stored := (List.range g.pg).map (c.stored g page slab)

/-- The representatives of a sketch entry as memory holds them. -/
def RunCmd.entry (c : RunCmd) (g : KvGeom) (slab i : Nat) : List Stored :=
  (List.range g.reps).map fun k =>
    ⟨(List.range (codesPerVec g.rate)).map fun j => leNat (c.bytesAt (slab + g.sketchCode i k j) 1),
      leNat (c.bytesAt (slab + g.sketchGain i k) 2)⟩

/-- Granules that hold the sketch entry of a page. -/
def entryGranules (g : KvGeom) (slab i : Nat) : List Nat :=
  ((List.range (codesPerVec g.rate)).flatMap fun j => granulesOf (slab + g.sketchCode i 0 j) g.reps) ++
    granulesOf (slab + g.sketchGain i 0) (2 * g.reps)

/-- Upkeep of one sketch slab (R202, R203): entries of its gap written, or entries from the cursor checked and rewritten. -/
def upkeepSlab (p : Nat) (c : RunCmd) (d : KvDesc) (lead : BitVec 10) (r : BatchRow) (head : Nat) (s : State) : State :=
  let h := c.kvHeader r
  let g := rowGeom d r h.alloc
  let l := c.hdr.layer.toNat
  let slab := g.sketchSlab h.sketch l head
  let hdr := c.slabHeader slab
  let pages := upkeepPages hdr d.upkeepPages.toNat r.pageCount.toNat
  let key := g.slab l head 0
  let book := c.book g.rate (d.record g.rate key)
  let gap := hdr.2.2 < hdr.2.1
  let s := pages.foldl (fun s i =>
    let made := representatives g book (c.slabVectors g (c.page r i) key)
    let reps := made.map (·.1)
    let s := s.countVoid p (made.filter (·.2)).length
    if gap then s.writeEntry p c g slab i reps
    else if c.entry g slab i = reps then s
    else (s.writeEntry p c g slab i reps).count ⟨0x0123, p, deCode, 0⟩) s
  let lo := if gap then hdr.2.2 + pages.length else hdr.2.2
  let cursor := if gap || r.pageCount = 0#32 then hdr.1 else (hdr.1 + d.upkeepPages.toNat) % r.pageCount.toNat
  let s := s.queueWrite p c 2 (slab / 128) (slabHeaderGranule cursor hdr.2.1 lo)
  if gap && lo = hdr.2.1 then s.send lead (.gapClosed r.ring c.hdr.layer (BitVec.ofNat 8 head)) else s

/-- SKETCH_UPKEEP (R202). -/
def planUpkeep (s : State) (p : Nat) (c : RunCmd) (o : DeOps) : KvPlan :=
  match s.kvDesc p c.inst, s.instRec c.inst with
  | some d, some ir =>
    let rows := s.rowAreas c o d.rowStride.toNat
    let l := c.hdr.layer.toNat
    let hdrs := rows.map fun r => r.row.staging.toNat / 128
    match c.lacks hdrs with
    | _ :: _ => .plain (.need (c.lacks hdrs))
    | [] =>
      let slabs := rows.flatMap fun r => (deHeads o).map fun e =>
        let h := c.kvHeader r.row
        let g := rowGeom d r.row h.alloc
        (r.row, e.2, g, g.sketchSlab h.sketch l e.2)
      match c.lacks (slabs.map fun x => x.2.2.2 / 128) with
      | _ :: _ => .plain (.need (c.lacks (slabs.map fun x => x.2.2.2 / 128)))
      | [] =>
        let pagesOf (x : BatchRow × Nat × KvGeom × Nat) := upkeepPages (c.slabHeader x.2.2.2) d.upkeepPages.toNat x.1.pageCount.toNat
        let lists := slabs.flatMap fun x => (pagesOf x).map fun i => (x.1.pageList.toNat + 4 * i) / 128
        match c.lacks lists.eraseDups with
        | _ :: _ => .plain (.need (c.lacks lists.eraseDups))
        | [] =>
          let data := slabs.flatMap fun x => (pagesOf x).flatMap fun i =>
            granulesOf (x.2.2.1.blockAddr (c.page x.1 i) (x.2.2.1.slab l x.2.1 0) 0) x.2.2.1.slabBytes ++ entryGranules x.2.2.1 x.2.2.2 i
          let recs := slabs.map fun x => (d.record x.2.2.1.rate (x.2.2.1.slab l x.2.1 0), x.2.2.1.rate)
          match c.lack data.eraseDups recs.eraseDups with
          | .granules gs => .plain (.need gs)
          | .records as => .records as []
          | .none => .plain (.act fun s =>
            rows.foldl (fun s r => (deHeads o).foldl (fun s e => upkeepSlab p c d ir.lead r.row e.2 s) s) s)
  | _, _ => .plain .fail

/-! ## DWALK -/

/-- A unit of a walk: a page with its index, or a range of staged positions (R206). -/
inductive WalkUnit where
  | page (i : Nat)
  | staged (first n : Nat)

/-- Tokens of a unit. -/
def WalkUnit.size (pg : Nat) (u : WalkUnit) : Nat :=
  match u with
  | .page _ => pg
  | .staged _ n => n

/-- The pass of one head area: its units, and the cursor it leaves (R205, R206). -/
structure WalkPass where
  units  : List WalkUnit
  cursor : Nat

/-- The units of the whole walk of a row (R205, R206). -/
def walkUnits (d : KvDesc) (all : Bool) (r : BatchRow) (sel : List Nat) : List WalkUnit :=
  let pages := fetchSet all r.pageCount.toNat d.selTop.toNat d.selRecent.toNat d.ringSize.toNat d.ringIndex.toNat sel
  let first := r.pageCount.toNat * rowPg r
  let n := if all && d.ringIndex ≠ 0#8 then 0 else r.position.toNat + rowTokens r - first
  pages.map WalkUnit.page ++ (List.range ((n + 127) / 128)).map fun k => .staged (first + 128 * k) (min 128 (n - 128 * k))

/-- The pass that a cursor value begins (R206). -/
def walkPass (slots pg : Nat) (units : List WalkUnit) (cursor : Nat) : WalkPass :=
  if 0x80000000 ≤ cursor || cursor < units.length then
    let start := if 0x80000000 ≤ cursor then 0 else cursor
    let rest := units.drop start
    let n := unitsThatFit slots (rest.map (WalkUnit.size pg))
    ⟨rest.take n, if start + n < units.length then start + n else 0x7FFFFFFF⟩
  else ⟨[], 0x7FFFFFFF⟩

/-- The slot of a token: unused when its key or its value is void (R207). -/
def slotOf (pos : Nat) (kb vb : List (List Word32)) (k v : Stored) : Slot × Nat :=
  if k.void || v.void then (.unused, k.void.toNat + v.void.toNat) else (⟨some pos, decodeVec kb k, decodeVec vb v⟩, 0)

/-- The slots of one unit, with the void vectors met. DESIGN CHOICE (notes/assumptions/69): a staged vector is never void, whatever it holds; the codec
alone makes vectors void. -/
def unitSlots (c : RunCmd) (d : KvDesc) (g : KvGeom) (r : BatchRow) (cs l head : Nat) (u : WalkUnit) : List (Slot × Nat) :=
  let ks := g.slab l head 0
  let vs := g.slab l head 1
  match u with
  | .page i =>
    let kb := c.book g.rate (d.record g.rate ks)
    let vb := c.book g.rate (d.record g.rate vs)
    (List.range g.pg).map fun t => slotOf (i * g.pg + t) kb vb (c.stored g (c.page r i) ks t) (c.stored g (c.page r i) vs t)
  | .staged first n =>
    (List.range n).map fun t =>
      (⟨some (first + t), c.stagedVec (stagedAddr r.staging.toNat cs ks (first + t)), c.stagedVec (stagedAddr r.staging.toNat cs vs (first + t))⟩, 0)

/-- The head areas of a DWALK: row, base of the area, head (R204). -/
def walkAreas (d : KvDesc) (o : DeOps) (rows : List RowArea) : List (BatchRow × Nat × Nat) :=
  let a := headAreaBytes d.walkSlots.toNat d.expFmt.toNat
  rows.flatMap fun r => (deHeads o).map fun e => (r.row, r.base + e.1 * a, e.2)

/-- The selection entries and the cursor of a head area (Table 8.6). -/
def selection (x : Part) (base : Nat) : List Nat × Nat :=
  let w := (window32 (x.sp.readN base 4096)).map BitVec.toNat
  (w.take 1023, (w[1023]?).getD 0)

/-- The pass of a head area. -/
def areaPass (x : Part) (d : KvDesc) (o : DeOps) (a : BatchRow × Nat × Nat) : WalkPass :=
  let sel := selection x a.2.1
  walkPass d.walkSlots.toNat (rowPg a.1) (walkUnits d (o.subop = 1#8 || a.1.ringMode) a.1 sel.1) sel.2

/-- Granules of the units of a pass: K of every page block and staged vector, then V (R209). -/
def passGranules (c : RunCmd) (d : KvDesc) (l : Nat) (a : BatchRow × Nat × Nat) (w : WalkPass) : List Nat :=
  let h := c.kvHeader a.1
  let g := rowGeom d a.1 h.alloc
  [0, 1].flatMap fun kv => w.units.flatMap fun u =>
    let s := g.slab l a.2.2 kv
    match u with
    | .page i => granulesOf (g.blockAddr (c.page a.1 i) s 0) g.slabBytes
    | .staged first n => (List.range n).flatMap fun t => granulesOf (stagedAddr a.1.staging.toNat h.cs s (first + t)) 256

/-- The record that each block of a pass needs, in the order in which the blocks are fetched. -/
def passRecords (d : KvDesc) (l : Nat) (a : BatchRow × Nat × Nat) (w : WalkPass) : List Nat :=
  let g := rowGeom d a.1 0
  [0, 1].flatMap fun kv => w.units.filterMap fun u => match u with
    | .page _ => some (d.record g.rate (g.slab l a.2.2 kv))
    | .staged _ _ => none

/-- Page indices of a pass. -/
def WalkPass.pages (w : WalkPass) : List Nat := w.units.filterMap fun u => match u with
  | .page i => some i
  | .staged _ _ => none

/-- One head area written (R207): positions, tiles, cursor; void vectors counted. DESIGN CHOICE (notes/assumptions/69): MX saturations met here enter no
counter, since R127 and Table 21.1 name none for a DE. -/
def writeArea (p : Nat) (c : RunCmd) (d : KvDesc) (l : Nat) (a : BatchRow × Nat × Nat) (w : WalkPass) (s : State) : State :=
  let h := c.kvHeader a.1
  let g := rowGeom d a.1 h.alloc
  let slots := w.units.flatMap (unitSlots c d g a.1 h.cs l a.2.2)
  let n := d.walkSlots.toNat
  let body := headAreaBody d.expFmt.toNat (padTo n Slot.unused (slots.map (·.1)))
  let s := s.countVoid p (slots.map (·.2)).sum
  s.modPart p fun x => (x.spWrite (a.2.1 + 4096) body.1).spWrite (a.2.1 + 4092) (leBytes 4 w.cursor)

/-- What a DWALK lacks next of one row: its KV header and page list entries, then the granules of its passes, by head (R209). -/
def rowLack (c : RunCmd) (d : KvDesc) (l : Nat) (r : RowArea) (passes : List ((BatchRow × Nat × Nat) × WalkPass)) : Option (List Nat) :=
  let first := r.row.staging.toNat / 128 :: passes.flatMap fun x => x.2.pages.map fun i => (r.row.pageList.toNat + 4 * i) / 128
  match c.lacks first.eraseDups with
  | gs@(_ :: _) => some gs
  | [] =>
    match c.lacks (passes.flatMap fun x => passGranules c d l x.1 x.2).eraseDups with
    | gs@(_ :: _) => some gs
    | [] => none

/-- DWALK (R204 to R209): its rows are read one after another. -/
def planDwalk (s : State) (p : Nat) (c : RunCmd) (o : DeOps) : KvPlan :=
  match s.kvDesc p c.inst with
  | none => .plain .fail
  | some d =>
    let rows := s.rowAreas c o d.rowStride.toNat
    let areas := walkAreas d o rows
    let size := headAreaBytes d.walkSlots.toNat d.expFmt.toNat
    let l := c.hdr.layer.toNat
    if s.badAreas p (areas.map fun a => (a.2.1, size)) then .plain .fail
    else match (s.part p).badArea (areas.map fun a => (a.2.1, 4096)) with
      | some a => .plain (.bad a)
      | none =>
        let passes := areas.map fun a => (a, areaPass (s.part p) d o a)
        let byRow := rows.map fun r => (r, (walkAreas d o [r]).map fun a => (a, areaPass (s.part p) d o a))
        match byRow.findSome? fun r => rowLack c d l r.1 r.2 with
        | some gs => .plain (.need gs)
        | none =>
          let recs := passes.flatMap fun x =>
            let g := rowGeom d x.1.1 0
            if x.2.pages.isEmpty then [] else [0, 1].map fun kv => (d.record g.rate (g.slab l x.1.2.2 kv), g.rate)
          match c.lack [] recs.eraseDups with
          | .granules gs => .plain (.need gs)
          | .records as => .records as (passes.flatMap fun x => passRecords d l x.1 x.2)
          | .none => .plain (.act fun s => passes.foldl (fun s x => writeArea p c d l x.1 x.2 s) s)

/-! ## The codebook cache (R211) -/

/-- The expansion queue takes a command's blocks in their order while it is not full: 256 entries, each with the record it needs. -/
def DeState.queueBlocks (d : DeState) (serial : Nat) (recs : List Nat) : DeState :=
  let kept := d.expq.filter fun q => q.1 ≠ serial && d.running.any fun c => c.serial = q.1 && !c.done
  { d with expq := kept ++ (recs.take (256 - kept.length)).map fun a => (serial, a) }

/-- Room for one more record: the cache with the fetches that run has fewer than 64, or gives up the least recently used record that no queued
block needs; none when every record is needed. -/
def DeState.makeRoom (d : DeState) : Option DeState :=
  if d.books.length + d.bookFetch.length < 64 then some d
  else match d.books.reverse.find? fun b => !(d.expq.any fun q => q.2 = b.1) with
    | some b => some { d with books := d.books.filter fun q => q.1 ≠ b.1 }
    | none => none

/-- A cached record taken by a command, whose queued blocks it expands; it becomes the most recently used. -/
def Part.takeBook (x : Part) (serial : Nat) (b : Nat × List Byte) : Part :=
  ({ x with de := { x.de with books := b :: x.de.books.filter (fun q => q.1 ≠ b.1), expq := x.de.expq.filter (· ≠ (serial, b.1)) } }).modCmd .de serial
    fun c => { c with got := keepGranules c.got (BitVec.ofNat 56 b.1) ((chunksOf 128 (b.2.length / 128) b.2).map granuleOf) }

/-- Records wanted (R211): of the records that queued blocks need, those cached are taken, and fetches of others start while fewer than eight run and
a place in the cache is free for them. `blocks` names the record of each block in arrival order; a command without blocks, which seals, wants its
records as they are. -/
def State.wantRecords (s : State) (p serial : Nat) (as : List (Nat × Nat)) (blocks : List Nat) : State :=
  let waiting := blocks.filter fun b => as.any fun a => a.1 = b
  let s := s.modPart p fun x => { x with de := x.de.queueBlocks serial waiting }
  as.foldl (fun s a =>
    let d := (s.part p).de
    if !blocks.isEmpty && !d.expq.contains (serial, a.1) then s
    else match d.books.find? fun b => b.1 = a.1 with
    | some b => s.modPart p fun x => x.takeBook serial b
    | none =>
      if d.bookFetch.any (fun f => f.1 = a.1) || 8 ≤ d.bookFetch.length then s
      else match d.makeRoom with
      | none => s
      | some d =>
        let s := (s.count ⟨0x0121, p, deCode, 0⟩).modPart p fun x => { x with de := { d with bookFetch := d.bookFetch ++ [(a.1, [])] } }
        (granulesOf a.1 (codebookBytes a.2)).foldl (fun s g => s.modPart p fun x =>
          x.enqueue (s.request p 1 1 (granuleAddr g) (BitVec.ofNat 120 (2 ^ 116)) []) serial (.codebook a.1)) s) s

/-- The bytes of a codebook fetch whose granules have all come; a record is at most 8 KiB. -/
def fetchedBytes (f : Nat × SMap Granule) : List Byte := f.2.flatMap fun g => granuleBytes g.2

/-- A finished codebook fetch enters the cache of 64 records, in the place that its miss made for it. -/
def Part.cacheBook (x : Part) (a : Nat) : Part :=
  match x.de.bookFetch.find? fun f => f.1 = a with
  | some f =>
    { x with de := { x.de with bookFetch := x.de.bookFetch.filter fun q => q.1 ≠ a,
                               books := ((a, fetchedBytes f) :: x.de.books.filter fun q => q.1 ≠ a).take 64 } }
  | none => x

end Sys2Proof.Machine
end

