-- ==== Sys2Proof/Machine/Proof.lean ====
section
/-! DEFINITION. Proof.lean: sessions and their records as the engines see them, the plan of DEMIT (spec/03 R91, R563; spec/14 R373) and
the plans of DPROOF in its two forms (spec/16 R424 to R430). -/
namespace Sys2Proof.Machine

/-! ## Sessions -/

/-- A session by its key. -/
def State.session (s : State) (k : SessKey) : Option Session := s.sess.list.find? fun x => x.key = k

/-- A session changed. -/
def State.modSession (s : State) (k : SessKey) (f : Session → Session) : State :=
  s.mapSessions fun x => if x.key = k then f x else x

/-- Is a batch row one of a session: its handle, and the page list at the start of the session's area (R190, R334)? Handles repeat across port
modules; areas do not. -/
def Session.owns (x : Session) (r : BatchRow) : Bool := x.handle = r.handle && r.pageList.toNat = x.area.toNat * blockBytes

/-- The session of a batch row. -/
def State.rowSession (s : State) (r : BatchRow) : Option Session := s.sess.list.find? fun x => x.owns r

/-- SLOT of a session. -/
def Session.slot (x : Session) : Nat := slotOfHandle x.handle

/-- A session open on its slot of this port module. -/
def State.slotSession (s : State) (slot : Nat) : Option Session :=
  s.sess.list.find? fun x => x.port = s.me && x.slot = slot && x.closing.isNone

/-- The first-token stroke plus i cadences: the due stroke of output i (R84). -/
def Session.due (x : Session) (i : Nat) : Nat := x.first.toNat + i * x.terms.cadence.toNat

/-- STATE of a session record (Table 16.4). -/
def Session.recState (x : Session) : Nat :=
  if x.closing.isSome then 3
  else if x.rcvd < x.terms.prompt.toNat then 0
  else if x.commitEnd < x.terms.prompt.toNat then 1 else 2

/-- The first output not yet handed over: one that is held is produced again after a restore (R435; notes/assumptions/23). -/
def Session.nextOut (x : Session) : Nat := (x.held.map (·.index)).foldl min x.outNext

/-- The session record of a session for a proof stroke (R423, Table 16.4). -/
def Session.record (x : Session) (proof : Stroke) : SessionRec :=
  { seed := x.terms.seed, first := x.first, proof := proof, handle := x.handle, lp := x.terms.prompt, lo := x.terms.output,
    promptRcvd := BitVec.ofNat 32 x.rcvd, outNext := BitVec.ofNat 32 x.nextOut, commitEnd := BitVec.ofNat 32 x.commitEnd,
    pageCount := BitVec.ofNat 32 x.pageCount, breaches := BitVec.ofNat 32 x.breaches, ttft := x.terms.ttft, chunk := x.chunk,
    endpoint := x.ep, cclass := x.terms.cclass, cadence := x.terms.cadence, grace := x.terms.grace,
    shifts := BitVec.ofNat 8 x.shifts, pageLog2 := x.pageLog2, state := BitVec.ofNat 4 x.recState }

/-- The 64 bytes of a session record (Table 16.4). -/
def recordBytes (r : SessionRec) : List Byte :=
  leBytes 64 (r.seed.toNat * 2 ^ 448 + r.first.toNat * 2 ^ 400 + r.proof.toNat * 2 ^ 352 + r.handle.toNat * 2 ^ 320 + r.lp.toNat * 2 ^ 288 +
    r.lo.toNat * 2 ^ 256 + r.promptRcvd.toNat * 2 ^ 224 + r.outNext.toNat * 2 ^ 192 + r.commitEnd.toNat * 2 ^ 160 +
    r.pageCount.toNat * 2 ^ 128 + r.breaches.toNat * 2 ^ 96 + r.ttft.toNat * 2 ^ 80 + r.chunk.toNat * 2 ^ 64 + r.endpoint.toNat * 2 ^ 56 +
    r.cclass.toNat * 2 ^ 48 + r.cadence.toNat * 2 ^ 40 + r.grace.toNat * 2 ^ 32 + r.shifts.toNat * 2 ^ 24 + r.pageLog2.toNat * 2 ^ 20 +
    r.state.toNat * 2 ^ 16)

/-- Address of a session record: RING_BASE + 32 MiB + 64 × SLOT (R423). -/
def recordAddr (base slot : Nat) : Nat := base + 33554432 + 64 * slot

/-! ## DEMIT (R91, R375, R563) -/

/-- An emit record (Table 3.17). -/
structure EmitRec where
  rsvd   : Bool
  fin    : Bool
  count  : Nat
  tokens : List Word32

/-- The emit record at a scratchpad offset. -/
def emitRec (x : Part) (off : Nat) : EmitRec :=
  let v := leNat (x.sp.readN off 64)
  { rsvd := bitsOf v 511 261 ≠ 0, fin := v.testBit 260, count := bitsOf v 259 256,
    tokens := (List.range (bitsOf v 259 256)).map fun k => BitVec.ofNat 32 (bitsOf v (32 * k + 31) (32 * k)) }

/-- Is the record of a row read? -/
def readsEmit (r : BatchRow) : Bool := r.stage = 0#8 || r.stage = 2#8 || r.stage = 3#8

/-- Is COUNT one that the row allows? -/
def emitCountOk (r : BatchRow) (n : Nat) : Bool := if r.stage = 2#8 then n = 1 else 1 ≤ n && n ≤ 1 + r.drafts.toNat

/-- An output put in its ring: a byte-masked write of its entry at the port module (R373); another module keeps what it handed over, for
R467. -/
def State.queueRing (s : State) (p : Nat) (c : RunCmd) (x : Session) (e : RingEntry) : State :=
  let s := if x.port = s.me then s
    else s.modSession x.key fun y => { y with ring := SMap.insert y.ring (e.outIndex.toNat % 64) e }
  match s.ringBase x.port with
  | some base => s.queueMasked p c (base + 1024 * x.slot + 16 * (e.outIndex.toNat % 64)) (leBytes 16 (ringEncode e))
  | none => s

/-- An output of a row: handed to the ring when it is due by the work stroke, else held (R91). -/
def emitOne (p : Nat) (c : RunCmd) (r : BatchRow) (h : HeldOut) (due : Nat) (s : State) : State :=
  match s.rowSession r with
  | none => s
  | some x =>
    if x.closing.isSome || x.endAt.any (· < h.index) || x.terms.output.toNat ≤ h.index then s
    else
      let fin := h.fin || h.index + 1 = x.terms.output.toNat
      let s := s.modSession x.key fun x =>
        { x with outNext := max x.outNext (h.index + 1), endAt := if fin then some h.index else x.endAt }
      if due ≤ s.su.work.toNat then
        s.queueRing p c x { token := h.token, outIndex := BitVec.ofNat 32 h.index, due := BitVec.ofNat 48 due, excl := 0#4, breach := false,
                            fin := fin, resent := false }
      else s.modSession x.key fun x => { x with held := x.held ++ [⟨h.index, h.token, fin⟩] }

/-- The output that a RELEASE row hands over: the held one that OUT_INDEX names (R91). -/
def emitHeld (p : Nat) (c : RunCmd) (r : BatchRow) (s : State) : State :=
  match s.rowSession r with
  | none => s
  | some x =>
    match x.held.find? fun h => h.index = r.outIndex.toNat with
    | none => s
    | some h =>
      if x.closing.isSome then s
      else (s.queueRing p c x { token := h.token, outIndex := r.outIndex, due := r.dueStroke, excl := 0#4, breach := false, fin := h.fin,
                                resent := false }).modSession x.key fun x => { x with held := x.held.filter fun q => q.index ≠ h.index }

/-- Cadence of a row's session. -/
def State.cadenceOf (s : State) (r : BatchRow) : Nat := ((s.rowSession r).map fun x => x.terms.cadence.toNat).getD 1

/-- One row of a DEMIT. -/
def emitRow (p : Nat) (c : RunCmd) (r : RowArea) (s : State) : State :=
  if r.row.stage = 4#8 then emitHeld p c r.row s
  else if readsEmit r.row then
    let e := emitRec (s.part p) r.base
    e.tokens.zipIdx.foldl (fun s t =>
      emitOne p c r.row ⟨r.row.outIndex.toNat + t.2, t.1, e.fin && t.2 + 1 = e.count⟩ (r.row.dueStroke.toNat + t.2 * s.cadenceOf r.row) s) s
  else s

/-- DEMIT. -/
def planDemit (s : State) (p : Nat) (c : RunCmd) (o : DeOps) : DePlan :=
  let rows := s.rowAreas c o 64
  let read := rows.filter fun r => readsEmit r.row
  if rows.any (fun r => r.base % 64 ≠ 0 || spBytes < r.base + 64) || s.badAreas p (read.map fun r => (r.base, 64)) then .fail
  else match (s.part p).badArea (read.map fun r => (r.base, 64)) with
    | some a => .bad a
    | none =>
      if read.any (fun r => let e := emitRec (s.part p) r.base; e.rsvd || !emitCountOk r.row e.count) then .fail
      else .act fun s => rows.foldl (fun s r => emitRow p c r s) s

/-! ## DPROOF (R424 to R430) -/

/-- Do layer-1 proofs go to the twin now (Table 16.3)? -/
def State.proofsFlow (s : State) : Bool :=
  s.twin.phase = .paired || (s.twin.phase = .holding && s.twin.twinPair = 3#2)

/-- The interval of a layer for a session (R430). -/
def State.proofInterval (s : State) (x : Session) (layer : Nat) : Nat :=
  match layer with
  | 1 => ((s.cclass x.terms.cclass).map fun c => c.recovery.toNat).getD 1
  | 2 => (s.boot.plate.map fun p => p.proof.flashEvery.toNat).getD 0
  | _ => (s.boot.plate.map fun p => p.proof.storeEvery.toNat).getD 0

/-- A session's mark at a layer; an empty mark stands at zero. -/
def Session.mark (x : Session) (layer : Nat) : Mark := SMap.get x.marks layer ⟨0#48, 0, 0, 0⟩

/-- Is a session due at a layer in the work stroke (R430), every session of an instance handed over in the stroke before h too (R438)? -/
def State.proofDue (s : State) (x : Session) (layer : Nat) : Bool :=
  let n := s.su.work.toNat
  let i := s.proofInterval x layer
  (i ≠ 0 && ((n + x.slot) % i = 0 || i ≤ n - (x.mark layer).proof.toNat)) ||
    (layer = 1 && ((SMap.find x.marks 1).isNone ||
      s.twin.handovers.any fun h => h.giving && h.inst = x.inst && h.h.toNat = n + 1))

/-- The capture of a layer, instance and point. -/
def State.capture (s : State) (layer : Nat) (inst : BitVec 16) (point : BitVec 48) : Option Capture :=
  s.twin.captures.find? fun c => c.layer = layer && c.inst = inst && c.point = point

/-- A capture changed, made if there is none. -/
def State.modCapture (s : State) (layer : Nat) (inst : BitVec 16) (point : BitVec 48) (f : Capture → Capture) : State :=
  let same (c : Capture) : Bool := c.layer = layer && c.inst = inst && c.point = point
  let l := s.twin.captures
  let l' := if l.any same then l.map fun c => if same c then f c else c else l ++ [f ⟨layer, inst, point, s.su.work, [], [], [], false⟩]
  { s with twin := { s.twin with captures := l' } }

/-- Is a granule's home this module? -/
def State.homedHere (s : State) (g : Nat) : Bool :=
  match s.homeOf (gaBlock (granuleAddr g)) with
  | some h => h.1 = s.me
  | none => false

/-- Granules captured at a layer. Layer 1: their data go to the twin's landing area. Layers 2 and 3: granules homed here are protected and
left to the proof writer, those read from other homes are copied already. -/
def State.captureGranules (s : State) (c : RunCmd) (layer : Nat) (gs : List Nat) : State :=
  let inst := c.inst
  let point := s.su.work
  let val (g : Nat) : Granule := SMap.get c.got g 0#1024
  let s := s.modCapture layer inst point id
  gs.foldl (fun s g =>
    if layer = 1 then
      (s.modCapture layer inst point fun k => { k with copied := k.copied ++ [(granuleAddr g, granuleBytes (val g))] }).emit
        (.twin (.data point inst (granuleAddr g) [val g]))
    else if s.homedHere g then
      { s.modCapture layer inst point fun k => { k with left := k.left ++ [granuleAddr g] } with
        mem := { s.mem with protect := setInsert s.mem.protect g } }
    else s.modCapture layer inst point fun k => { k with copied := k.copied ++ [(granuleAddr g, granuleBytes (val g))] }) s

/-- Granules whose values a DPROOF must read: all at layer 1, those of other homes at layers 2 and 3. -/
def State.proofReads (s : State) (layer : Nat) (gs : List Nat) : List Nat :=
  if layer = 1 then gs else gs.filter fun g => !s.homedHere g

/-- DPROOF, range form (R426). While proofs do not flow, one of layer 1 completes without copying (R420). -/
def planDproofRange (s : State) (_p : Nat) (c : RunCmd) (o : DeOps) : DePlan :=
  let layer := o.subop.toNat
  if layer = 1 && !s.proofsFlow then .act id
  else
    let gs := (List.range o.len.toNat).map fun i => gaGranule o.addrA + i
    match c.lacks (s.proofReads layer gs) with
    | _ :: _ => .need (c.lacks (s.proofReads layer gs))
    | [] => .act fun s => s.captureGranules c layer gs

/-- A row of a DPROOF with its session, geometry and the ends of what it covers. -/
structure ProofRow where
  row  : BatchRow
  x    : Session
  g    : KvGeom
  hdr  : KvHeader
  mark : Mark
  e    : Nat
  pc   : Nat

/-- The due rows of a DPROOF at its layer. -/
def State.proofRows (s : State) (p : Nat) (c : RunCmd) (o : DeOps) : List ProofRow :=
  match s.kvDesc p c.inst with
  | none => []
  | some d =>
    (s.rowAreas c o 0).filterMap fun r =>
      match s.rowSession r.row with
      | none => none
      | some x =>
        if s.proofDue x o.subop.toNat then
          let h := c.kvHeader r.row
          let e := committedEnd r.row.stage.toNat r.row.position.toNat (rowTokens r.row)
          some { row := r.row, x := x, g := rowGeom d r.row h.alloc, hdr := h, mark := x.mark o.subop.toNat, e := e, pc := e / rowPg r.row }
        else none

/-- The pages that a proof carries. -/
def ProofRow.pages (r : ProofRow) : List Nat := (List.range (r.pc - r.mark.pageCount)).map fun i => r.mark.pageCount + i

/-- Staged positions that a proof carries. -/
def ProofRow.positions (r : ProofRow) : List Nat :=
  let lo := max r.mark.commitEnd (r.pc * rowPg r.row)
  (List.range (r.e - lo)).map fun i => lo + i

/-- Does a DPROOF carry the session-level parts (R426)? -/
def sessionLevel (c : RunCmd) (o : DeOps) : Bool := c.hdr.layer = 0#16 && o.headFirst = 0#8

/-- Granules of the session-level parts: the page list on the first proof, prompt tokens since the mark (Table 16.5). -/
def sessionGranules (r : ProofRow) (first : Bool) : List Nat :=
  let lo := r.mark.promptRcvd
  let prompt := r.hdr.sketch + r.g.layers * r.g.heads * r.g.sketchBytes
  (if first then granulesOf r.row.pageList.toNat (4 * r.hdr.alloc) else []) ++
    (if lo < r.x.rcvd then granulesOf ((prompt + 127) / 128 * 128 + 4 * lo) (4 * (r.x.rcvd - lo)) else [])

/-- Granules of the slab parts of one head (Table 16.5). -/
def headGranules (c : RunCmd) (layer : Nat) (r : ProofRow) (head : Nat) : List Nat :=
  let l := c.hdr.layer.toNat
  let slab := r.g.sketchSlab r.hdr.sketch l head
  ([0, 1].flatMap fun kv =>
    let sl := r.g.slab l head kv
    (r.pages.flatMap fun i => granulesOf (r.g.blockAddr (c.page r.row i) sl 0) r.g.slabBytes) ++
      r.positions.flatMap fun x => granulesOf (stagedAddr r.row.staging.toNat r.hdr.cs sl x) 256) ++
    (if layer = 1 then slab / 128 :: r.pages.flatMap (entryGranules r.g slab) else [])

/-- Every granule of a row-form DPROOF. -/
def proofGranules (c : RunCmd) (o : DeOps) (rows : List ProofRow) : List Nat :=
  let layer := o.subop.toNat
  (rows.flatMap fun r =>
    (if sessionLevel c o then sessionGranules r (SMap.find r.x.marks layer).isNone else []) ++
      (deHeads o).flatMap fun e => headGranules c layer r e.2).eraseDups

/-- The session record that a proof carries: the session's with the proof's ends. -/
def ProofRow.record (r : ProofRow) (n : Stroke) : SessionRec :=
  { r.x with commitEnd := r.e, pageCount := r.pc }.record n

/-- The records of a proof kept with its capture; those of this port module's sessions go to the twin at layer 1 (R423, R424). -/
def State.captureRecords (s : State) (c : RunCmd) (layer : Nat) (rows : List ProofRow) : State :=
  let n := s.su.work
  let recs := rows.map fun r => ProofPart.mk r.x.port (r.record n)
  let s := s.modCapture layer c.inst n fun k => { k with recs := k.recs ++ recs }
  let mine := (rows.filter fun r => r.x.port = s.me).map fun r => r.record n
  if layer = 1 && !mine.isEmpty then s.emit (.twin (.record n c.inst mine)) else s

/-- DPROOF, row form (R424, R426, R430). -/
def planDproofRow (s : State) (p : Nat) (c : RunCmd) (o : DeOps) : DePlan :=
  let layer := o.subop.toNat
  if layer = 1 && !s.proofsFlow then .act id
  else
    let areas := s.rowAreas c o 0
    match c.lacks (areas.map fun r => r.row.staging.toNat / 128).eraseDups with
    | l@(_ :: _) => .need l
    | [] =>
      let rows := s.proofRows p c o
      let lists := rows.flatMap fun r => r.pages.map fun i => (r.row.pageList.toNat + 4 * i) / 128
      match c.lacks lists.eraseDups with
      | l@(_ :: _) => .need l
      | [] =>
        let gs := proofGranules c o rows
        match c.lacks (s.proofReads layer gs) with
        | l@(_ :: _) => .need l
        | [] => .act fun s =>
          let s := s.captureGranules c layer gs
          if sessionLevel c o then s.captureRecords c layer rows else s

end Sys2Proof.Machine
end

