-- ==== Sys2Proof/Machine/Start.lean ====
section
/-! DEFINITION. Start.lean: the engines of a partition run on as far as they can: the DE's plans step by step, the requests they send,
an MLD's data, and the next commands of every engine (spec/03 R61, R562). -/
namespace Sys2Proof.Machine

/-! ## Stream copies (R60, R166, R274) -/

/-- OWNER of a stream entry (Table 15.14). -/
def ownerNum (o : Owner) : Nat :=
  match o with
  | .csq k => k.val
  | .cc => 4

/-- The stream of an owner of this module. -/
def State.stream (s : State) (p : Nat) (o : Owner) (inst : BitVec 16) (prog : BitVec 2) : Option StreamRec :=
  s.boot.plate.bind fun pl => pl.programs.find? fun r =>
    r.module = s.me && r.part.toNat = p && r.owner.toNat = ownerNum o && r.inst = inst && r.program = prog

/-- Where a stream stands: a PROGRAM 2 stream keeps a position of its own. -/
def OwnerState.at (o : OwnerState) (prog : BitVec 2) : StreamPos := if prog = 2#2 then o.job else o.serve

/-- Its position changed. -/
def OwnerState.move (o : OwnerState) (prog : BitVec 2) (f : StreamPos → StreamPos) : OwnerState :=
  if prog = 2#2 then { o with job := f o.job } else { o with serve := f o.serve }

/-- Word k of a stream, from an address on: the one that its copy holds there. -/
def StreamRec.wordAt (r : StreamRec) (a : Nat) : Option (BitVec 512) :=
  if r.dest.toNat ≤ a then r.commands[(a - r.dest.toNat) / 64]? else none

/-- The bytes of a granule of a stream copy at its home: this module's frame, or, where the copy lies at another home, what start has put there, since
copies are written only at start (R166; notes/assumptions/19). -/
def State.copyBytes (s : State) (r : StreamRec) (g : Nat) : List Byte :=
  match s.homeOf (g / 16384) with
  | some (m, f) =>
    if m = s.me then s.mem.mem.readN (f * blockBytes + g % 16384 * 128) 128
    else (List.range 2).flatMap fun k => leBytes 64 ((r.wordAt (128 * g + 64 * k)).getD 0#512).toNat
  | none => []

/-- The stream at whose head an owner stands, and the address of the command there. -/
def State.headPlace (s : State) (p : Nat) (o : Owner) (q : StreamPos) : Option (StreamRec × Nat) :=
  (s.stream p o q.inst q.prog).bind fun r => if q.pos < r.commands.length then some (r, r.dest.toNat + 64 * q.pos) else none

/-- The command word at the head of a stream as its owner fetches it: from the line of the die cache, else from the copy (R60, R166, R255). -/
def State.headWord (s : State) (p : Nat) (o : Owner) (q : StreamPos) : Option (BitVec 512) :=
  (s.headPlace p o q).map fun h =>
    let bytes := match SMap.find (s.part p).dcache.lines (h.2 / 128) with
      | some d => granuleBytes d
      | none => s.copyBytes h.1 (h.2 / 128)
    BitVec.ofNat 512 (leNat ((bytes.drop (h.2 % 128)).take 64))

/-- The fetch of a stream's head command fills its line of the die cache (R274). -/
def fetchHead (p : Nat) (o : Owner) (s : State) (q : StreamPos) : State :=
  match s.headPlace p o q with
  | some h =>
    let g := h.2 / 128
    if (SMap.find (s.part p).dcache.lines g).isSome || (s.part p).inEngReset dcacheCode then s else s.fillLine p g (granuleOf (s.copyBytes h.1 g))
  | none => s

/-- Every owner of a partition fetches the commands at the heads of its streams. -/
def State.fetchHeads (s : State) (p : Nat) : State :=
  allOwners.foldl (fun s o => let w := (s.part p).owner o; fetchHead p o (fetchHead p o s w.serve) w.job) s

/-! ## Running on -/

/-- Line writes done, in their order. -/
def Part.putLines (x : Part) (l : List (List (Nat × List Byte))) : Part := l.flatten.foldl (fun x w => x.spWrite w.1 w.2) x

/-- Line writes of an engine's running command that reach the scratchpad meanwhile: how many is free (R278; notes/assumptions/13). -/
def putSome (p : Nat) (s : State) (engine : Nat) : State :=
  match ((s.part p).unitCmds (unitOf engine)).find? fun c => !c.lines.isEmpty with
  | none => s
  | some c =>
    let n := Config.freeNat s.free % (c.lines.length + 1)
    { s.modPart p fun x => (x.putLines (c.lines.take n)).modCmd (unitOf engine) c.serial fun c => { c with lines := c.lines.drop n } with
      free := s.free + 1 }

/-- The plan of a running DE command. -/
def dePlan (s : State) (p : Nat) (c : RunCmd) : KvPlan :=
  match c.args with
  | .de o =>
    match c.kind with
    | .dcopy => .plain (planDcopy p c o)
    | .dwalk => planDwalk s p c o
    | .dstage => .plain (planDstage s p c o)
    | .dseal => planDseal s p c o
    | .upkeep => planUpkeep s p c o
    | .datom op => .plain (planDatom s p c o op)
    | .dsignal => .plain (planDsignal s p c o)
    | .dproofRange => .plain (planDproofRange s p c o)
    | .dproofRow => .plain (planDproofRow s p c o)
    | .demit => .plain (planDemit s p c o)
    | _ => .plain .hold
  | _ => .plain .hold

/-- Priority class of the reads of a DE command (Table 9.6, R212): reads of a DSEAL are writes-class traffic, those of a DPROOF background. Table 9.6
names no class for the header reads of DSTAGE; they take the class of the command's other traffic, 2 (notes/assumptions/17). -/
def deReadClass (c : RunCmd) : Nat :=
  match c.kind with
  | .dproofRange | .dproofRow => 3
  | .dseal | .upkeep | .dstage => max 2 (readClass c.hdr.cls)
  | _ => readClass c.hdr.cls

/-- Reads of the granules a command lacks and has not asked for yet. -/
def State.wantGranules (s : State) (p : Nat) (c : RunCmd) (gs : List Nat) : State :=
  let asked := ((s.part p).openReqs c.serial).map fun r => gaGranule r.pkt.addr
  (gs.filter fun g => !asked.contains g).foldl (fun s g =>
    s.modPart p fun x => x.enqueue (s.request p 1 (deReadClass c) (granuleAddr g) (BitVec.ofNat 120 (2 ^ 116)) []) c.serial .gather) s

/-- Bytes moved by a DE command, counted when its work is done. -/
def RunCmd.counted (c : RunCmd) (wrote : Nat) : RunCmd :=
  { c with done := true, cnt := { c.cnt with rdBytes := 128 * c.got.length, wrBytes := wrote } }

/-- Bytes that requests still to be sent for a command write. -/
def Part.queuedBytes (x : Part) (serial : Nat) : Nat :=
  ((x.openReqs serial).map fun r => if r.pkt.type = 2#8 then 128 else if r.pkt.type = 3#8 then 16 else 0).sum

/-- One running DE command carried on. -/
def progressDe (p : Nat) (s : State) (serial : Nat) : State :=
  match (s.part p).de.running.find? fun c => c.serial = serial with
  | none => s
  | some c =>
    if c.done || (s.part p).inEngReset deCode then s
    else match dePlan s p c with
      | .records as blocks => s.wantRecords p serial as blocks
      | .plain .hold => s
      | .plain (.need gs) => s.wantGranules p c gs
      | .plain .fail => s.expireCmd p deCode c.hdr.cls
      | .plain (.bad off) => s.modPart p fun x => x.modCmd .de serial fun c => { c with done := true, ending := readEnd p s.me off }
      | .plain (.act f) =>
        let s := f s
        s.modPart p fun x => x.modCmd .de serial fun c => c.counted (x.queuedBytes serial)

/-- One round: every DE command carried on, what may be sent is sent, MLDs whose data have come write it. -/
def settleOnce (p : Nat) (s : State) : State :=
  let s := ((s.part p).de.running.map (·.serial)).foldl (progressDe p) s
  let s := s.pump p
  (List.range 4).foldl (fun s k => s.mldProgress p k) s

/-- Rows that a DE command acts on at most. -/
def RunCmd.rowBound (c : RunCmd) : Nat :=
  match c.args with
  | .de o => if c.hdr.rowrel then 1 else o.rowCount.toNat
  | _ => 0

/-- Rounds enough for the commands' chains of reads: header and page list, data, records, work, answers, and a DWALK row by row. -/
def Part.settleRounds (x : Part) : Nat := 16 + 2 * (x.de.running.map RunCmd.rowBound).sum

/-- The DE and the MLDs of a partition run on until they wait for something outside. -/
def State.settle (s : State) (p : Nat) : State := Nat.repeat (settleOnce p) (s.part p).settleRounds s

/-- Every engine of a partition starts what it may start. -/
def startAll (p : Nat) (s : State) : State :=
  let s := (List.range 4).foldl (fun s k => startVe ((List.range 4).foldl (fun s a => startArray s p k a) s) p k) s
  startCinv s p

/-- The engines of a partition run on (R61, R114, R161): owners fetch, running commands write lines, and what may start starts; a second round starts
what the first one lets start. -/
def State.runOn (s : State) (p : Nat) : State :=
  if (s.part p).reset.isSome then s else (startAll p (startAll p (engineCodes.foldl (putSome p) (s.fetchHeads p)))).settle p

end Sys2Proof.Machine
end

