-- ==== Sys2Proof/Machine/Issue.lean ====
section
/-! DEFINITION. Issue.lean: a stream owner and the command at the head of its stream: when it may issue, what issuing it does, retiring in
a catch-up or failed stroke, the position after it, and the next instance (spec/03 R61 to R65, R74 to R80, R90, R91; spec/06 R165 to R167). -/
namespace Sys2Proof.Machine

/-! ## Programs -/

/-- Is a program chosen for an instance in the work stroke: decode for tables of decode and release rows only, else prefill (R62)? -/
def programOf (t : BatchTable) : BitVec 2 := if t.rows.all fun r => r.stage = 0#8 || r.stage = 3#8 || r.stage = 4#8 then 1#2 else 0#2

/-- Does an instance run in the work stroke (R62): its table has a row? -/
def tableRuns (t : BatchTable) : Bool := !t.rows.isEmpty

/-! ## What may issue -/

/-- What keeps an issue from happening, or lets it happen. -/
inductive Verdict where
  | blocked
  | limit
  | waiting
  | caught
  | go
deriving DecidableEq, Repr

/-- The chosen program of an instance gives an owner a stream; while its table has not come, either program's counts (R62, R63). -/
def State.streamed (s : State) (p : Nat) (o : Owner) (n : BitVec 16) : Bool :=
  match s.table n with
  | some t => (s.stream p o n (programOf t)).isSome
  | none => (s.stream p o n 0#2).isSome || (s.stream p o n 1#2).isSome

/-- Has every owner of a partition ended its serving streams of the work stroke? -/
def State.streamsEnded (s : State) (p : Nat) : Bool :=
  allOwners.all fun o => (s.myInsts.map (·.inst)).all fun n =>
    ((s.part p).owner o).ended.contains n || !s.streamed p o n || ((s.table n).map fun t => !tableRuns t).getD false

/-- Has every command of classes 0 to 4 of the work stroke on a partition completed (R91, R449)? -/
def State.servingOver (s : State) (p : Nat) : Bool := s.su.begun && s.streamsEnded p && (s.part p).servingDone

/-- The instance of the tuning job. -/
def State.jobInst (s : State) : Option (BitVec 16) := s.boot.plate.bind fun p => p.tuning.map (·.inst)

/-- May a class 5 command issue on a partition now: serving is over there, the stroke is no catch-up stroke, and its TIMEOUT ends by D (R91)? -/
def State.slackFor (s : State) (p : Nat) (h : CmdHdr) : Bool :=
  !s.su.catchup && s.servingOver p && s.time.ft.toNat + 1000 * h.timeout.toNat ≤ s.dueAt s.su.work.toNat

/-- Does the owner run the stream now: the work stroke has begun, nothing of it is in reset, the instance has its table, and the stream has
not ended, failed (R243, R466), parked or stopped for its phase (R61, R63, R75, R449)? -/
def State.owns (s : State) (i : Issue) : Bool :=
  let p := i.part.toNat
  let o := (s.part p).owner i.owner
  let pos := o.at i.prog
  s.su.begun && !o.stopped.contains i.inst && (s.part p).reset.isNone && !(s.part p).inEngReset (ownerCode i.owner) && pos.inst = i.inst && pos.prog = i.prog &&
    (match pos.heldTo with
     | some t => t.toNat ≤ s.time.ft.toNat
     | none => true) &&
    (if i.prog = 2#2 then s.job.phase = .running && !o.parked && o.grant && s.slackFor p i.hdr
     else (s.table i.inst).isSome && !o.ended.contains i.inst)

/-- Does the wait condition of a command hold (R77)? -/
def State.waitMet (s : State) (p : Nat) (h : CmdHdr) : Bool :=
  !h.waitEn || h.waitCount.toNat ≤ (s.part p).effective s.su.work h.waitSem.toNat

/-- Is a class one that a catch-up stroke retires (R90)? -/
def deferrable (h : CmdHdr) : Bool := 1 ≤ h.cls.toNat && h.cls.toNat ≤ 4

/-- The plate command that an engine command is issued for: its kind and operands (Tables 3.3 to 3.6); rows of the command table that share an opcode
are told apart by SUBOP, CLASS and LEN (R202, R426, Table 11.2). -/
def plateCmd (h : CmdHdr) (k : CmdKind) (a : CmdArgs) : Option PlateCmd :=
  match k, a with
  | .nop, .none => some .nop
  | .mload, .mat o | .mmul, .mat o | .mdrain, .mat o => some (.mat k.opcode o)
  | .vop op, .vec o => some (.vec op o)
  | .cinv, .de o => some (.cinv o)
  | .dseal, .de o => if h.cls = 2#4 then none else some (.de k.opcode o)
  | .upkeep, .de o => if h.cls = 2#4 then some (.de k.opcode o) else none
  | .datom op, .de o => if o.subop.toNat = op.subop then some (.de k.opcode o) else none
  | .dproofRange, .de o => if o.len = 0#32 then none else some (.de k.opcode o)
  | .dproofRow, .de o => if o.len = 0#32 then some (.de k.opcode o) else none
  | .dcopy, .de o | .dwalk, .de o | .dstage, .de o | .dsignal, .de o | .demit, .de o => some (.de k.opcode o)
  | _, _ => none

/-- Is this command, header and operands, the one at the head of its stream as the owner has fetched it (R60, R61, R166)? -/
def State.atHead (s : State) (i : Issue) (c : Option PlateCmd) : Bool :=
  match s.headWord i.part.toNat i.owner (((s.part i.part.toNat).owner i.owner).at i.prog) with
  | some w => wordHdr w = i.hdr && (match decodeWord w with
    | .ok d => c = some d
    | .error _ => false)
  | none => false

/-- Would the command be one too many for its stream in this stroke (R65)? -/
def State.overLimit (s : State) (i : Issue) : Bool :=
  s.domain.streamLimit.toNat ≤ (((s.part i.part.toNat).owner i.owner).at i.prog).issued

/-- The verdict on issuing a command; `engine` says whether it is addressed to an engine. One that a catch-up stroke retires first waits for its
semaphore, and is not executed, so the stream limit does not count it (R65, R90; notes/assumptions/63). -/
def State.verdict (s : State) (i : Issue) (engine : Bool) (c : Option PlateCmd) : Verdict :=
  let p := i.part.toNat
  if !s.owns i || !s.atHead i c then .blocked
  else if engine && s.su.catchup && deferrable i.hdr then (if s.waitMet p i.hdr then .caught else .waiting)
  else if s.overLimit i then .limit
  else if !s.waitMet p i.hdr then .waiting
  else .go

/-! ## Positions (R74, R165, R167) -/

/-- The position after a command: the next one; at a loop body's end its next iteration, or the command after the loop (R74). -/
def StreamPos.next (x : StreamPos) : StreamPos :=
  match x.loop with
  | none => { x with pos := x.pos + 1 }
  | some l =>
    if x.pos + 1 = l.first + l.body then
      if l.iter + 1 < l.rows.length then { x with pos := l.first, loop := some { l with iter := l.iter + 1 } }
      else { x with pos := x.pos + 1, loop := none }
    else { x with pos := x.pos + 1 }

/-- The position after a taken branch; a target outside the loop body ends the loop (R167). -/
def StreamPos.jump (x : StreamPos) (target : Nat) : StreamPos :=
  match x.loop with
  | some l => if l.first ≤ target && target < l.first + l.body then { x with pos := target } else { x with pos := target, loop := none }
  | none => { x with pos := target }

/-- The next command comes to the head now. -/
def StreamPos.headed (x : StreamPos) (now : BitVec 64) : StreamPos := { x with headAt := some now, waiting := false, heldTo := none }

/-- An owner's stream moved on. -/
def State.moveStream (s : State) (i : Issue) (f : StreamPos → StreamPos) : State :=
  s.modPart i.part.toNat fun x => x.modOwner i.owner fun o =>
    { (o.move i.prog fun q => (f q).headed s.ftOr0) with grant := o.grant && i.prog ≠ 2#2 }

/-- A command executed: one more in the stroke, and the position moved on (R65). -/
def State.executed (s : State) (i : Issue) (f : StreamPos → StreamPos) : State :=
  s.moveStream i fun q => { f q with issued := q.issued + 1 }

/-- A command's SIG_EN effect, released behind its engine's earlier writes (R78, R79, R271). -/
def State.sigEn (s : State) (p engine serial : Nat) (h : CmdHdr) : State :=
  if h.sigEn then s.release p ⟨engine, serial, none, s.cmdSignal h⟩ else s

/-- A serial number taken. -/
def State.takeSerial (s : State) (p : Nat) : Nat × State :=
  ((s.part p).nextSer, s.modPart p fun x => { x with nextSer := x.nextSer + 1 })

/-! ## Issuing -/

/-- The command as issued (R81, R74): its generation stamped, its row and offset in an enclosing loop. -/
def State.runCmd (s : State) (i : Issue) (k : CmdKind) (a : CmdArgs) : RunCmd :=
  let p := i.part.toNat
  let q := ((s.part p).owner i.owner).at i.prog
  let rel := i.hdr.rowrel
  { serial := (s.part p).nextSer, kind := k, args := a, owner := i.owner, inst := i.inst, prog := i.prog, hdr := i.hdr, index := q.pos,
    iter := q.loop.map (·.iter), row := if rel then q.loop.bind fun l => l.rows[l.iter]? else none,
    off := if rel then (q.loop.map fun l => l.iter * l.stride).getD 0 else 0, headAt := q.headAt, lines := [], puts := [],
    gen := (s.part p).genOf (unitOf i.hdr.engine.toNat), stroke := s.su.work, issuedAt := s.ftOr0, startAt := none, cnt := .zero,
    summary := none, got := [], done := false, ending := .ok }

/-- Can the engine accept a command now (R562, Table 3.16)? -/
def State.canAccept (s : State) (p engine : Nat) (a : CmdArgs) : Bool :=
  let x := s.part p
  !x.inEngReset engine &&
    match unitOf engine, a with
    | .array k n, .mat o => (x.cluster k).accepts n o.gang.toNat
    | .ve k, .vec _ => (x.cluster k).ve.queue.length < 2
    | .de, .de _ => x.de.running.length < 64
    | .dcache, .de _ => x.dcache.queue.length < 4
    | _, _ => false

/-- A command handed to its engine, behind those it has accepted. -/
def Part.accept (x : Part) (engine : Nat) (c : RunCmd) : Part :=
  match unitOf engine with
  | .array k n => x.modCluster k fun cl => cl.modArray n fun m => { m with queue := m.queue ++ [c] }
  | .ve k => x.modCluster k fun cl => { cl with ve := { cl.ve with queue := cl.ve.queue ++ [c] } }
  | .de => { x with de := { x.de with running := x.de.running ++ [c] } }
  | .dcache => { x with dcache := { x.dcache with queue := x.dcache.queue ++ [c] } }
  | _ => x

/-- An instance has issued a command to an engine in the work stroke (R466). -/
def Part.noteIssued (x : Part) (engine : Nat) (inst : BitVec 16) : Part :=
  let e := (engine, inst)
  if x.issued.contains e then x else { x with issued := e :: x.issued }

/-- Retired in a catch-up stroke: its semaphore effects alone, local and remote (R90); its trace record has outcome 3. -/
def State.retireCaught (s : State) (i : Issue) (k : CmdKind) (a : CmdArgs) : State :=
  let p := i.part.toNat
  let e := i.hdr.engine.toNat
  let c := s.runCmd i k a
  let s := (s.takeSerial p).2
  let s := match k, a with
    | .dsignal, .de o => s.release p ⟨e, c.serial, some o.addrA, ⟨BitVec.ofNat 13 (gaSem o.addrA), s.su.work, o.value.truncate 16⟩⟩
    | _, _ => s
  let s := s.sigEn p e c.serial i.hdr
  ((s.closeCmd p e c 3 2).moveStream i .next).runOn p

/-- The head waits on its semaphore. -/
def State.noteWait (s : State) (i : Issue) : State :=
  s.modPart i.part.toNat fun x => x.modOwner i.owner fun o => o.move i.prog fun q => { q with waiting := true }

/-- An engine command issues: stamped, handed to its engine, the stream moved on, the engines run on. -/
def State.issueTo (s : State) (i : Issue) (k : CmdKind) (a : CmdArgs) : State :=
  let p := i.part.toNat
  let c := s.runCmd i k a
  let s := (s.takeSerial p).2.modPart p fun x => (x.accept i.hdr.engine.toNat c).noteIssued i.hdr.engine.toNat i.inst
  (s.executed i .next).runOn p

/-- An owner's attempt to issue an engine command (R61, R562). -/
def issueEngine (i : Issue) (k : CmdKind) (a : CmdArgs) (s : State) : Res :=
  let p := i.part.toNat
  inPart s p (match s.verdict i true (plateCmd i.hdr k a) with
    | .blocked => s
    | .limit => s.expireCmd p i.hdr.engine.toNat i.hdr.cls
    | .waiting => s.noteWait i
    | .caught => s.retireCaught i k a
    | .go => if s.canAccept p i.hdr.engine.toNat a then s.issueTo i k a else s)

/-- An owner's attempt to execute a control command; `f` is its effect once it may (R61). -/
def issueControl (i : Issue) (opcode : Nat) (o : CtlOps) (s : State) (f : State → State) : Res :=
  let p := i.part.toNat
  inPart s p (match s.verdict i false (some (.ctl opcode o)) with
    | .blocked => s
    | .limit => s.expireCmd p (ownerCode i.owner) i.hdr.cls
    | .waiting => s.noteWait i
    | .caught | .go => f s)

/-- A control command completes in its owner: its signal and its trace record. -/
def State.ctlDone (s : State) (i : Issue) (opcode : Nat) : State :=
  let p := i.part.toNat
  let c := s.runCmd i .nop .none
  let s := ((s.takeSerial p).2.modPart p fun x => x.noteIssued (ownerCode i.owner) i.inst).sigEn p (ownerCode i.owner) c.serial i.hdr
  if i.hdr.trace then
    s.dieTrace p (cmdRec s p (ownerCode i.owner) c 1
      (commandPayload s c opcode 0))
  else s

/-! ## Instances of an owner (R62, R63, R91) -/

/-- Instances whose tables give them rows, ascending. -/
def State.runInsts (s : State) : List (BitVec 16) :=
  (s.myInsts.filter fun r => ((s.table r.inst).map tableRuns).getD false).map (·.inst)

/-- The first instance with a stream of an owner that runs in the work stroke and has not ended. A table that has not come holds back the
later instances (R63, R64). -/
def State.nextInst (s : State) (p : Nat) (o : Owner) : Option (BitVec 16 × BitVec 2) :=
  let st := (s.part p).owner o
  let left := (s.myInsts.map (·.inst)).filter fun n =>
    !st.ended.contains n && s.streamed p o n &&
      (match s.table n with
       | some t => tableRuns t
       | none => true)
  match left with
  | [] => none
  | n :: _ => (s.table n).map fun t => (n, programOf t)

/-- An owner begins the stream of its next instance (R63). -/
def serveNext (p : Nat) (o : Owner) (s : State) : State :=
  let st := (s.part p).owner o
  match s.nextInst p o with
  | none => s
  | some n =>
    if st.serve.inst = n.1 && st.serve.prog = n.2 && st.serve.headAt.isSome then s
    else s.modPart p fun x => x.modOwner o fun w =>
      { w with serve := { StreamPos.reset with inst := n.1, prog := n.2, headAt := some s.ftOr0 } }

/-- Every owner of the module begins what it may. -/
def serveAll (s : State) : State :=
  if s.su.begun then (List.range s.label.variant.parts).foldl (fun s p => allOwners.foldl (fun s o => serveNext p o s) s) s else s

end Sys2Proof.Machine
end

