-- ==== Sys2Proof/Machine/PlateBytes.lean ====
section
/-! DEFINITION. PlateBytes.lean: the bytes of a plate below SIG_OFFSET, section by section (spec/15 R388 to R401, Tables 15.4 to 15.18, with the
tables of other chapters that Table 15.6 names), and the digests taken over them (spec/15 R391, spec/20 R503). A record whose reserved
bits are not zero has them in its lowest reserved bit (notes/assumptions/12). -/
namespace Sys2Proof.Machine

/-- n bytes that hold fields at their lowest bits. -/
def recBytes (n : Nat) (l : List (Nat × Nat)) : List Byte := leBytes n ((l.map fun f => f.1 * 2 ^ f.2).sum)

/-- Padding with zeros to a multiple of n. -/
def padMul (n : Nat) (l : List Byte) : List Byte := padTo ((l.length + n - 1) / n * n) 0#8 l

/-- Plate header (Table 15.4). -/
def PlateHeader.bytes (h : PlateHeader) : List Byte :=
  recBytes 128 [(h.magic.toNat, 992), (h.format.toNat, 976), (h.sections.toNat, 960), (h.length.toNat, 928), (h.sigOffset.toNat, 896),
    (h.serial.toNat, 832), (h.domainId.toNat, 816), (h.rsvd.toNat, 0)]

/-- Section table entry (Table 15.5). -/
def SectionEntry.bytes (e : SectionEntry) : List Byte :=
  recBytes 32 [(e.type.toNat, 248), (e.entrySize.toNat, 224), (e.count.toNat, 192), (e.offset.toNat, 160), (e.length.toNat, 128), (e.rsvd.toNat, 0)]

/-- DOMAIN (Table 15.8) with its grandmasters. -/
def DomainRec.bytes (d : DomainRec) : List Byte :=
  recBytes 128 [(d.epoch.toNat, 960), (d.period.toNat, 928), (d.proofWin.toNat, 896), (d.slack.toNat, 864), (d.slotLen.toNat, 848),
    (d.horizon.toNat, 840), (d.streamLimit.toNat, 816), (d.dirBlocksM1.toNat, 784), (d.manager.toNat, 774), (d.deputy.toNat, 764),
    (d.sizeM1.toNat, 754), (d.powerLimit.toNat, 728), (d.startTimeout.toNat, 712), (d.ptpDomain.toNat, 704), (d.ptpTransport.toNat, 702),
    (d.gmCount.toNat, 698), (d.rsvd.toNat, 0)] ++ d.gms.flatMap fun g => leBytes 8 g.toNat

/-- Module entry (Table 15.9). -/
def ModuleEntry.bytes (m : ModuleEntry) : List Byte :=
  recBytes 128 [(m.identity.toNat, 512), (m.module.toNat, 502), (m.side.toNat, 501), (m.variant.toNat, 499), (m.rsvd.toNat, 0)]

/-- Setup record (Table 20.3). -/
def Setup.bytes (s : Setup) : List Byte :=
  recBytes 320 [(s.operator.toNat, 2048), (s.tenant.toNat, 1536), (s.plateSigner.toNat, 1024), (s.members.toNat, 512), (s.notAfter.toNat, 448),
    (s.ceiling.toNat, 432), (s.obsLevel.toNat, 430), (s.linkEnc.toNat, 429), (s.rsvd.toNat, 0), (s.epoch.toNat, 408), (s.clients.toNat, 392),
    (s.slots.toNat, 376), (s.changes.toNat, 368)]

/-- Key slot (Table 20.4). -/
def KeySlot.bytes (k : KeySlot) : List Byte :=
  leBytes 8 (k.module.toNat + k.side.toNat * 2 ^ 10 + k.rsvd.toNat * 2 ^ 11) ++ leBytes 1568 k.ctext.toNat ++ leBytes 8 0 ++ leBytes 48 k.root.toNat

/-- Change record (Table 20.5), up to the first signature, up to the countersignature, and whole. -/
def ChangeRec.head (c : ChangeRec) : List Byte :=
  leBytes 8 c.counter.toNat ++ leBytes 8 (c.kind.toNat + c.first.toNat * 2 ^ 8 + c.rsvd.toNat * 2 ^ 16) ++ leBytes 64 c.old.toNat ++
    leBytes 64 c.new.toNat ++ leBytes 2592 c.pk1.toNat
def ChangeRec.signed (c : ChangeRec) : List Byte := c.head ++ leBytes 4627 c.sig1.toNat ++ leBytes 2592 c.pk2.toNat
def ChangeRec.bytes (c : ChangeRec) : List Byte := c.signed ++ leBytes 4627 c.sig2.toNat ++ leBytes 10 0

/-- Client identities, 64 B each. -/
def clientBytes (l : List (BitVec 512)) : List Byte := l.flatMap fun c => leBytes 64 c.toNat

/-- PROTECTION (R503). -/
def Protection.bytes (p : Protection) : List Byte :=
  p.setup.bytes ++ clientBytes p.clients ++ p.slots.flatMap KeySlot.bytes ++ p.changes.flatMap ChangeRec.bytes

/-- The setup digest (R503). -/
def setupDigest (s : Setup) (clients : List (BitVec 512)) : BitVec 512 := Config.sha3 (s.bytes ++ clientBytes clients)

/-- Host port record (Table 15.10). -/
def HostPortRec.bytes (h : HostPortRec) : List Byte :=
  recBytes 64 [(h.ipv6.toNat, 384), (h.gateway6.toNat, 256), (h.ringBase.toNat, 200), (h.pfx6.toNat, 192), (h.ipv4.toNat, 160),
    (h.gateway4.toNat, 128), (h.pfx4.toNat, 120), (h.astPort.toNat, 104), (h.vlan.toNat, 92), (h.echo.toNat, 91), (h.side.toNat, 90),
    (h.module.toNat, 80), (h.rsvd.toNat, 0)]

/-- Object entry (Table 15.11). -/
def ObjectEntry.bytes (o : ObjectEntry) : List Byte :=
  recBytes 128 [(o.digest.toNat, 512), (o.name.toNat, 448), (o.length.toNat, 384), (o.blockBase.toNat, 352), (o.kind.toNat, 348), (o.rsvd.toNat, 0)]

/-- DATA record (Table 15.12) with its bytes. -/
def DataRec.raw (d : DataRec) : List Byte :=
  recBytes 16 [(d.dest.toNat, 72), (d.bytes.length, 40), (d.rsvd.toNat, 0)] ++ padMul 128 d.bytes

/-- Placement entry (Table 10.7). -/
def PlaceEntry.bytes (e : PlaceEntry) : List Byte :=
  recBytes 16 [(e.blockBase.toNat, 96), (e.blockCount.toNat, 64), (e.module.toNat, 54), (e.mods.toNat, 44), (e.frameBase.toNat, 24),
    (e.use.toNat, 20), (e.pinned.toNat, 19), (e.rsvd.toNat, 16), (e.inst.toNat, 0)]

/-- Record tag (Table 15.7). -/
def tagBytes (m : BitVec 10) (part : BitVec 5) (count : Nat) (rsvd : Bool) : List Byte :=
  recBytes 8 [(m.toNat, 54), (part.toNat, 48), (count, 32), (rsvd.toNat, 0)]

/-- Spread entry (Table 9.5). -/
def Spread.bytes (s : Spread) : List Byte :=
  recBytes 16 [(s.frameBase.toNat, 96), (s.frameCount.toNat, 64), (s.offsetBase.toNat, 32), (s.parts.toNat, 16), (s.rsvd.toNat, 0)]

/-- INTERLEAVE record. -/
def InterleaveRec.bytes (r : InterleaveRec) : List Byte := tagBytes r.module r.part r.spreads.length r.rsvd ++ r.spreads.flatMap Spread.bytes

/-- Bank group entry (Table 7.4). -/
def GroupEntry.bytes (g : GroupEntry) : List Byte := recBytes 4 [(g.kind.toNat, 28), (g.clusters.toNat, 24), (g.rsvd.toNat, 16), (g.image.toNat, 0)]

/-- SCRATCH record (R179). -/
def ScratchRec.bytes (r : ScratchRec) : List Byte :=
  tagBytes r.module r.part (r.groups.length + r.batchBase.length) r.rsvd ++ r.groups.flatMap GroupEntry.bytes ++
    r.batchBase.flatMap fun b => leBytes 4 b.toNat

/-- Instance record (Table 15.13). -/
def InstanceRec.bytes (r : InstanceRec) : List Byte :=
  recBytes 64 [(r.inst.toNat, 496), (r.lead.toNat, 486), (r.modFirst.toNat, 476), (r.modCountM1.toNat, 466), (r.maxRows.toNat, 453), (r.rsvd.toNat, 0)]

/-- PROGRAMS: the directory, then the command bodies one after another (R398). -/
def programsBytes (l : List StreamRec) : List Byte :=
  let base := (32 * l.length + 63) / 64 * 64
  let step (acc : Nat × List Byte) (r : StreamRec) : Nat × List Byte :=
    (acc.1 + 64 * r.commands.length,
     acc.2 ++ recBytes 32 [(r.inst.toNat, 240), (r.program.toNat, 238), (r.module.toNat, 228), (r.part.toNat, 223), (r.owner.toNat, 220),
       (r.commands.length, 196), (acc.1, 164), (r.dest.toNat, 108), (r.rsvd.toNat, 0)])
  padMul 64 (l.foldl step (base, [])).2 ++ l.flatMap fun r => r.commands.flatMap fun c => leBytes 64 c.toNat

/-- KV descriptor (Table 8.1). -/
def KvDesc.bytes (d : KvDesc) : List Byte :=
  recBytes 64 [(d.cb2.toNat, 448), (d.cb1.toNat, 384), (d.cb05.toNat, 320), (d.layers.toNat, 304), (d.kvHeads.toNat, 296), (d.pagesMax.toNat, 272),
    (d.walkSlots.toNat, 256), (d.selTop.toNat, 248), (d.selRecent.toNat, 240), (d.pgMin.toNat, 236), (d.pgMax.toNat, 232), (d.repsLog2.toNat, 228),
    (d.expFmt.toNat, 224), (d.rates.toNat, 221), (d.upkeepPages.toNat, 200), (d.ringSize.toNat, 192), (d.ringIndex.toNat, 184),
    (d.rowStride.toNat, 152), (d.rsvd.toNat, 0)]

/-- KV records: those of one partition under one tag. -/
def kvBytes (l : List KvRec) : List Byte :=
  (l.splitBy fun a b => a.module = b.module && a.part = b.part && a.tagRsvd = b.tagRsvd).flatMap fun g =>
    match g with
    | [] => []
    | r :: _ => tagBytes r.module r.part g.length r.tagRsvd ++ g.flatMap fun k => recBytes 8 [(k.inst.toNat, 48), (k.rsvd.toNat, 0)] ++ k.desc.bytes

/-- Hop entry (Table 15.16). -/
def HopRec.bytes (h : HopRec) : List Byte := recBytes 16 [(h.module.toNat, 118), (h.port.toNat, 113), (h.slot.toNat, 95), (h.rsvd.toNat, 0)]

/-- Planned transfer (Table 15.15) with its hops. -/
def PlanRec.bytes (r : PlanRec) : List Byte :=
  recBytes 64 [(r.src.toNat, 456), (r.dst.toNat, 400), (r.total.toNat, 376), (r.readySem.toNat, 363), (r.readyCount.toNat, 347), (r.sigEn.toNat, 346),
    (r.sigSem.toNat, 333), (r.sigInc.toNat, 317), (r.inst.toNat, 301), (r.hops.toNat, 297), (r.rsvd.toNat, 0)] ++ r.route.flatMap HopRec.bytes

/-- Contract class entry (Table 13.2). -/
def ClassEntry.bytes (c : ClassEntry) : List Byte :=
  recBytes 32 [(c.promptMax.toNat, 224), (c.outputMax.toNat, 192), (c.inst.toNat, 176), (c.cadenceMin.toNat, 168), (c.cadenceMax.toNat, 160),
    (c.graceMin.toNat, 152), (c.recovery.toNat, 144), (c.draftsMax.toNat, 136), (c.rate.toNat, 134), (c.chunkMin.toNat, 112), (c.chunkMax.toNat, 96),
    (c.rsvd.toNat, 0)]

/-- Admission header (Table 13.3). -/
def AdmHeader.bytes (h : AdmHeader) : List Byte :=
  recBytes 16 [(h.resTwin.toNat, 112), (h.resCatch.toNat, 96), (h.fabShare.toNat, 80), (h.thermalBand.toNat, 72), (h.twinned.toNat, 64), (h.rsvd.toNat, 0)]

/-- Cost entry (Table 13.6). -/
def CostEntry.bytes (e : CostEntry) : List Byte := recBytes 16 [(e.time.toNat, 96), (e.read.toNat, 64), (e.xfer.toNat, 32), (e.slot.toNat, 0)]

/-- Instance admission record (Table 13.4) and its cost table. -/
def AdmRec.bytes (r : AdmRec) : List Byte :=
  recBytes 32 [(r.base.time.toNat, 224), (r.base.read.toNat, 192), (r.base.xfer.toNat, 160), (r.base.slot.toNat, 128), (r.slotCap.toNat, 96),
    (r.detect.toNat, 64), (r.inst.toNat, 48), (r.rsvd.toNat, 0)] ++ r.costs.flatMap CostEntry.bytes

/-- Symbol entry (Table 15.17). -/
def SymbolRec.bytes (r : SymbolRec) : List Byte :=
  recBytes 32 [(r.kind.toNat, 248), (r.id.toNat, 224), (r.addr.toNat, 168), (r.length.toNat, 136), (r.format.toNat, 132), (r.rsvd.toNat, 128), (r.name.toNat, 0)]

/-- Validation entry (Table 15.18) with its tokens. -/
def ValidRec.bytes (v : ValidRec) : List Byte :=
  recBytes 32 [(v.seed.toNat, 192), (v.inst.toNat, 176), (v.cclass.toNat, 168), (v.prompt.length, 144), (v.output.toNat, 128), (v.matchN.toNat, 112),
    (v.rsvd.toNat, 0)] ++ padMul 32 ((v.prompt ++ v.expected).flatMap fun t => leBytes 4 t.toNat)

/-- Proof record (Table 16.6). -/
def ProofRec.raw (p : ProofRec) : List Byte :=
  recBytes 128 [(p.storeKey.toNat, 512), (p.storeIp6.toNat, 384), (p.storeIp4.toNat, 352), (p.storePort.toNat, 336), (p.flashEvery.toNat, 320),
    (p.storeEvery.toNat, 304), (p.restoreWait.toNat, 288), (p.landingMib.toNat, 272), (p.flashGib.toNat, 256), (p.rsvd.toNat, 0)]

/-- Group record (Table 17.2) with its schedule points. -/
def GroupRec.bytes (g : GroupRec) : List Byte :=
  recBytes 32 [(g.beta1.toNat, 224), (g.beta2.toNat, 192), (g.eps.toNat, 160), (g.decay.toNat, 128), (g.points.length, 120), (g.kind.toNat, 118),
    (g.rsvd.toNat, 0)] ++ g.points.flatMap fun p => recBytes 8 [(p.step.toNat, 32), (p.lr.toNat, 0)]

/-- TUNING (R443). -/
def Tuning.bytes (t : Tuning) : List Byte :=
  recBytes 64 [(t.inst.toNat, 496), (t.jobBase.toNat, 440), (t.stepsMax.toNat, 408), (t.rootEvery.toNat, 392), (t.every1.toNat, 376),
    (t.every2.toNat, 360), (t.every3.toNat, 344), (t.groups.length, 336), (t.ranges.length, 320), (t.rsvd.toNat, 0)] ++
    t.groups.flatMap GroupRec.bytes ++ t.ranges.flatMap fun r => recBytes 16 [(r.addr.toNat, 72), (r.granules.toNat, 40), (r.rsvd.toNat, 0)]

/-- Trace record of the TRACE section: its tag and entry (Table 21.7). -/
def TraceEntry.bytes (t : TraceEntry) : List Byte :=
  tagBytes t.module 0x1F#5 1 t.tagRsvd ++
  recBytes 64 [(t.destMac.toNat, 464), (t.ovfBase.toNat, 408), (t.ovfGib.toNat, 400), (t.dumpBase.toNat, 344), (t.dumpMib.toNat, 328), (t.mode.toNat, 327),
    (t.rearm.toNat, 326), (t.postCount.toNat, 288), (t.trigKind.toNat, 280), (t.trigSpace.toNat, 272), (t.trigCode.toNat, 264), (t.trigLayer.toNat, 248),
    (t.trigOp.toNat, 232), (t.trigValue.toNat, 200), (t.sampleUs.toNat, 168), (t.kindMask.toNat, 160), (t.rsvd.toNat, 0)]

/-- The bytes of a section by its type (Table 15.6). -/
def Plate.sectionBytes (p : Plate) (type : Nat) : List Byte :=
  match type with
  | 0x01 => p.domain.bytes
  | 0x02 => p.modules.flatMap ModuleEntry.bytes
  | 0x03 => p.protection.bytes
  | 0x04 => (p.firmware.map fun f => Config.firmwareBytes f.version f.measure f.sig).getD []
  | 0x05 => p.hostports.flatMap HostPortRec.bytes
  | 0x06 => p.objects.flatMap ObjectEntry.bytes
  | 0x07 => p.data.flatMap DataRec.raw
  | 0x08 => p.placement.flatMap PlaceEntry.bytes
  | 0x09 => p.interleave.flatMap InterleaveRec.bytes
  | 0x0A => p.scratch.flatMap ScratchRec.bytes
  | 0x0B => p.instances.flatMap InstanceRec.bytes
  | 0x0C => programsBytes p.programs
  | 0x0D => kvBytes p.kv
  | 0x0E => p.slotplan.flatMap PlanRec.bytes
  | 0x0F => p.classes.flatMap ClassEntry.bytes
  | 0x10 => p.admission.bytes ++ p.admRecs.flatMap AdmRec.bytes
  | 0x11 => p.symbols.flatMap SymbolRec.bytes
  | 0x12 => p.validate.flatMap ValidRec.bytes
  | 0x13 => p.proof.raw
  | 0x14 => (p.tuning.map Tuning.bytes).getD []
  | 0x15 => (p.trace.map fun l => l.flatMap TraceEntry.bytes).getD []
  | _ => []

/-- Bytes 0 to SIG_OFFSET − 1: header, section table, every section at its offset. -/
def Plate.image (p : Plate) : List Byte :=
  let head := p.header.bytes ++ p.sections.flatMap SectionEntry.bytes
  padTo p.header.sigOffset.toNat 0#8
    (p.sections.foldl (fun acc e => padTo (max e.offset.toNat acc.length) 0#8 acc ++ p.sectionBytes e.type.toNat) head)

/-- The plate measurement (R391). -/
def Plate.measure (p : Plate) : BitVec 512 := Config.sha3 p.image

end Sys2Proof.Machine
end

