-- ==== Sys2Proof/Machine/Packets.lean ====
section
/-! DEFINITION. Packets.lean: the fabric packets that reach a module (spec/12 Tables 12.3 to 12.6): requests at their home, responses, planned
and late transfers, transit, and the wait store (spec/10 R252, R253, R261; spec/02 R52 to R54; spec/12 R298 to R309). -/
namespace Sys2Proof.Machine

/-! ## Planned transfers of the plate (R399) -/

/-- A planned transfer of the plate. -/
def State.planRec (s : State) (n : Nat) : Option PlanRec := s.boot.plate.bind fun p => p.slotplan[n]?

/-- The hop that this module transmits of a planned transfer, with its place in the route. -/
def State.planHop (s : State) (r : PlanRec) : Option (HopRec × Nat) := r.route.zipIdx.find? fun h => h.1.module = s.me

/-- Fields of a PLAN or LATE packet (Table 12.5). -/
structure XferArg where
  stroke : Stroke
  inc    : BitVec 16
  sem    : BitVec 13
  sigEn  : Bool
  total  : Nat
  plan   : BitVec 16

/-- ARG of a PLAN or LATE packet. -/
def xferArg (a : BitVec 120) : XferArg :=
  let v := a.toNat
  { stroke := BitVec.ofNat 48 (bitsOf v 119 72), inc := BitVec.ofNat 16 (bitsOf v 71 56), sem := BitVec.ofNat 13 (bitsOf v 55 43),
    sigEn := v.testBit 42, total := bitsOf v 41 18, plan := BitVec.ofNat 16 (bitsOf v 17 2) }

/-! ## Responses (R253, R307, R308) -/

/-- A request of a DE that a response answers: that of its transaction number, generation and address. -/
def Part.answered (x : Part) (p : Packet) : Option DeReq :=
  x.de.inflight.find? fun r => r.pkt.txn = p.txn && r.pkt.gen = p.gen && r.pkt.addr = p.addr

/-- A request no longer in flight. -/
def Part.land (x : Part) (r : DeReq) : Part := { x with de := { x.de with inflight := x.de.inflight.erase r } }

/-- A response at its DE: one with a stale generation is discarded and counted (R308). One of a remote request frees the count of its link die, for
which any DE of the module may have waited (R305). -/
def State.response (s : State) (p : Packet) : State :=
  let k := p.dpart.toNat
  if p.gen ≠ (s.part k).de.fgen then (s.count ⟨0x0124, k, deCode, 0⟩).count (modCtr 0x0046 3)
  else match (s.part k).answered p with
    | none => s
    | some r =>
      let s := ((s.modPart k fun x => x.land r).deAnswer k r p).runOn k
      if r.ld.isSome then s.pumpAll else s

/-- Is a response one to a write of a migration's transfer from this module (Table 10.9, step 2)? Its block's home is here until the switch, so no DE of
this module has asked its new home for it. One of an earlier run of the transfer is none. -/
def State.isCopyResp (s : State) (p : Packet) : Bool :=
  match s.migOf (gaBlock p.addr) with
  | some m => gaSpace p.addr = 0 && m.oldMod = s.me && m.newMod = p.src && m.newMod ≠ s.me && !m.switched && p.gen = m.run
  | none => false

/-- A response to a write of a transfer: its eight granules have moved. -/
def State.copied (s : State) (p : Packet) : State :=
  if p.status = 0#4 then s.modMig (gaBlock p.addr) fun m => { m with moved := m.moved + 8 } else s

/-! ## Transit (R290, R296 to R298, R303) -/

/-- Is a packet one of this module's own system or migration writes, for which no DE waits (notes/assumptions/67)? -/
def State.systemWrite (s : State) (p : Packet) : Bool :=
  p.spart = 0xF#4 && (s.label.variant.parts ≤ 15 || (s.migOf (gaBlock p.addr)).any fun m => m.oldMod = s.me)

/-- A request that finds no route is answered HOME_LOST in its home's place (R298); one of this module's own DEs, sent again, has its answer here. -/
def State.answerLost (s : State) (p : Packet) : State :=
  if 5 < p.type.toNat then s
  else if p.src ≠ s.me then (s.sendPacket (p.reply s.me 5 0 [])).state
  else if s.systemWrite p then s
  else s.response (p.reply s.me 5 0 [])

/-- A packet that this module passes on. One of VC0 waits in the VC0 buffer of the link die of its outgoing port for its slot (R303). Another is routed
afresh and keeps the receive buffer `inb` that it came into until it leaves (R301). Where no route is left, HOME_LOST answers a request (R298). -/
def State.forward (s : State) (p : Packet) (inb : Option (Nat × Packet)) : State :=
  if p.vc = 0#2 then
    let port := match (s.planRec (xferArg p.arg).plan.toNat).bind s.planHop with
      | some h => some h.1.port.toNat
      | none => (s.route p.src.toNat p.dst.toNat).map fun j => s.physicalFor j p
    match port with
    | some k => { s with fab := { s.fab with vc0 := s.fab.vc0 ++ [⟨k, p, none, s.time.mono⟩] } }
    | none => s
  else match s.sendPacket p inb with
    | .sent s => s
    | .hopLimit s => s.leaveBuffer inb
    | .noRoute s => (s.leaveBuffer inb).answerLost p

/-- A packet accepted only in LSEQ order on its port; one out of order is discarded and a NACK sent (R312). -/
def State.accept (s : State) (p : Packet) (a : Arrival) (f : State → State) : State :=
  if s.inOrder a then f (s.arrive p a) else s.outOfOrder a

/-- PACKET_FORWARD (R296). -/
def execPacketForward (r : Received) (s : State) : Res :=
  .next (if r.pkt.dst = s.me then s else s.accept r.pkt r.at_ fun s => s.forward r.pkt (inbOf r.at_ r.pkt))

/-! ## Requests at their home -/

/-- A request at this module: served and answered on VC2, or put to wait (R252, R302, R307). A module that has left the domain answers
HOME_LOST (R439), and a held one serves no request (R413). -/
def State.receive (s : State) (p : Packet) (noise : ReadNoise) (a : Arrival) : State :=
  s.accept p a fun s =>
    let inb := inbOf a p
    if p.dst ≠ s.me then s.forward p inb
    else if s.boot.standing = .detached then ((s.leaveBuffer inb).sendPacket (p.reply s.me 5 0 [])).state
    else if s.boot.standing = .heldVisible then s.leaveBuffer inb
    else match s.serve p noise with
      | .answer s r => ((s.leaveBuffer inb).sendPacket r).state
      | .wait s w => s.wait (some a.port.toNat) p w

/-- RD (R252). -/
def execRd (r : Received) (noise : ReadNoise) (s : State) : Res := .next (s.receive r.pkt noise r.at_)
/-- WR (R252). -/
def execWr (r : Received) (s : State) : Res := .next (s.receive r.pkt [] r.at_)
/-- MWR (R217): an indivisible read, merge and write at the home. -/
def execMwr (r : Received) (noise : ReadNoise) (s : State) : Res := .next (s.receive r.pkt noise r.at_)
/-- ATOM (R281). -/
def execAtom (r : Received) (noise : ReadNoise) (s : State) : Res := .next (s.receive r.pkt noise r.at_)
/-- SIG (R78). -/
def execSig (r : Received) (s : State) : Res := .next (s.receive r.pkt [] r.at_)

/-! ## Responses at this module (R253, R307) -/

/-- RESP (R253). A response to one of the system's own writes, which carry SPART 0xF, needs nothing more
(notes/assumptions/67). What the DE then reads meets the errors that come with it (R220). -/
def execResp (r : ReceivedResp) (s : State) : Res :=
  let p := r.pkt
  let a := r.at_
  if p.dst ≠ s.me then .next (s.accept p a fun s => s.forward p (inbOf a p))
  else if s.isCopyResp p then .next (s.accept p a fun s => (s.leaveBuffer (inbOf a p)).copied p)
  else if p.dpart = 0xF#4 && s.label.variant.parts ≤ 15 then .next (s.accept p a fun s => s.leaveBuffer (inbOf a p))
  else inPart s p.dpart.toNat ((s.noteErrs r.errs).accept p a fun s => (s.leaveBuffer (inbOf a p)).response p)

/-! ## The wait store (R302) -/

/-- A waiting request served: its answer goes to its DE here or into the fabric; one of the system's own writes needs none. -/
def State.answerWait (s : State) (w : Waiting) (r : Packet) : State :=
  match w.port with
  | none => if (s.part w.pkt.spart.toNat).de.inflight.any fun q => q.pkt = w.pkt then s.response r else s
  | some _ => if r.dst = s.me then s else (s.sendPacket r).state

/-- A waiting request passed in arrival order: tried again where it is one to try, against those that wait before it; its answer is kept until all
have been passed. -/
def retryWait (sel : Waiting → Bool) (x : State × List (Waiting × Packet)) (w : Waiting) : State × List (Waiting × Packet) :=
  let keep (s : State) (w : Waiting) : State := { s with mem := { s.mem with waits := s.mem.waits ++ [w] } }
  if (sel w || w.why = .behind) && !w.inBuf then
    match x.1.serve w.pkt [] with
    | .answer s r => (s, x.2 ++ [(w, r)])
    | .wait s why => (keep s { w with why := why }, x.2)
  else (keep x.1 w, x.2)

/-- A waiting request marked as held in the wait store. -/
def markStored (x : Waiting) : List Waiting → List Waiting
  | [] => []
  | w :: r => if w = x then { w with inBuf := false } :: r else w :: markStored x r

/-- The receive buffer that a waiting request occupies: while the wait store has no entry for it. -/
def Waiting.inb (w : Waiting) : Option (Nat × Packet) := if w.inBuf then w.port.map fun k => (k, w.pkt) else none

/-- Requests that still hold VC1 credits take the free entries of the wait store, oldest first, and leave their receive buffers (R302). -/
def State.fillStore (s : State) : State :=
  (s.mem.waits.filter (·.inBuf)).foldl (fun s w =>
    if s.waitRoom w.ld then { s with mem := { s.mem with waits := markStored w s.mem.waits } }.leaveBuffer w.inb else s) s

/-- The waiting requests of the wait store that a condition names are tried again in arrival order, and with them those that wait only for one before
them (R261); the others keep their places. Free entries are then taken by requests that found the store full. -/
def State.retryWaits (s : State) (sel : Waiting → Bool) : State :=
  let r := s.mem.waits.foldl (retryWait sel) ({ s with mem := { s.mem with waits := [] } }, [])
  (r.2.foldl (fun s a => s.answerWait a.1 a.2) r.1).fillStore

/-- WAIT_STORE_RELEASE (R302): an entry frees where a waiting request can be served, and one that held VC1 credits takes its place. -/
def execWaitStoreRelease (ld : BitVec 3) (s : State) : Res :=
  inLink s ld.toNat (s.retryWaits fun w => w.ld = some ld.toNat)

/-- FREEZE_QUEUE_SPACE (R261): writes that waited for a freeze-queue entry are accepted as far as there is room. -/
def execFreezeQueueSpace (s : State) : Res := .next (s.retryWaits fun w => w.why = .freezeFull)

/-- TOUCH_BUFFER_SPACE (R427): writes that waited for a touch-buffer entry are accepted as far as there is room. -/
def execTouchBufferSpace (s : State) : Res := .next (s.retryWaits fun w => w.why = .touchFull)

/-! ## Planned and late transfers (R54, R270, R303 to R306, R399) -/

/-- Granules received of a (SRC, PLAN, STROKE), counted up; at TOTAL the count is dropped. -/
def State.countPlan (s : State) (src : BitVec 10) (a : XferArg) (n : Nat) : State × Bool :=
  let same (c : PlanCount) : Bool := c.src = src && c.plan = a.plan && c.stroke = a.stroke
  let c := ((s.mem.planned.find? same).map (·.count)).getD 0 + n
  let rest := s.mem.planned.filter fun c => !same c
  if a.total ≤ c then ({ s with mem := { s.mem with planned := rest } }, true)
  else ({ s with mem := { s.mem with planned := rest ++ [⟨src, a.plan, a.stroke, c⟩] } }, false)

/-- Granules of a transfer at their destination: written, counted, and at TOTAL the transfer's signal applied. A partition in reset, or a
group of kind 0, takes none (R181, R471). -/
def State.takeTransfer (s : State) (p : Packet) : State :=
  let k := gaPart p.addr
  let off := gaSpOff p.addr
  let n := p.payload.length
  if gaSpace p.addr ≠ 1 || !gaLayoutOk p.addr || s.label.variant.parts ≤ k || spBytes < off + 128 * n || p.addr.toNat % 128 ≠ 0 then s
  else if (s.part k).reset.isSome || s.kindZero k off (128 * n) then s
  else
    let a := xferArg p.arg
    let s := s.modPart k fun x => x.spWrite off (p.payload.flatMap granuleBytes)
    let c := s.countPlan p.src a n
    if c.2 && a.sigEn then c.1.signal k ⟨a.sem, a.stroke, a.inc⟩ else c.1

/-- A packet of a transfer at this module: taken at its destination, else passed on. -/
def State.transferPacket (s : State) (p : Packet) (a : Arrival) : State :=
  s.accept p a fun s => if p.dst = s.me then (s.leaveBuffer (inbOf a p)).takeTransfer p else s.forward p (inbOf a p)

/-- PLAN (R306). -/
def execPlan (r : Received) (s : State) : Res := .next (s.transferPacket r.pkt r.at_)
/-- LATE (R306). -/
def execLate (r : Received) (s : State) : Res := .next (s.transferPacket r.pkt r.at_)

/-- RESERVED_PACKET_TYPE (R306): discarded and counted. -/
def execReservedPacketType (r : Received) (s : State) : Res :=
  .next (s.accept r.pkt r.at_ fun s => (s.leaveBuffer (inbOf r.at_ r.pkt)).count (modCtr 0x0046 2))

/-- A packet discarded for its age, 10 ms after it began to wait, and counted (R309). -/
def State.aged (s : State) (since : Word64) : State := (s.reachMono (since.toNat + 10000000)).count (modCtr 0x0046 1)

/-- PACKET_AGE_EXPIRY (R309): a packet that has waited more than 10 ms in a link die's buffers is discarded and counted; the receive buffer that it
occupied is free again, and so is an entry of the wait store. -/
def execPacketAgeExpiry (ld : BitVec 3) (p : Packet) (s : State) : Res :=
  let held (q : Transit) : Bool := q.port / 4 = ld.toNat && q.pkt = p
  inLink s ld.toNat (match s.fab.waiting.find? held, s.fab.vc0.find? held, s.mem.waits.find? fun w => w.ld = some ld.toNat && w.pkt = p with
    | some q, _, _ => ({ s with fab := { s.fab with waiting := s.fab.waiting.erase q } }.aged q.since).leaveBuffer q.inb
    | none, some q, _ => { s with fab := { s.fab with vc0 := s.fab.vc0.erase q } }.aged q.since
    | none, none, some w =>
      (({ s with mem := { s.mem with waits := s.mem.waits.erase w } }.aged w.since).leaveBuffer w.inb).retryWaits fun _ => false
    | none, none, none => s)

/-- Is the data of a transfer of a stroke ready: READY_SEM of the source partition has reached READY_COUNT in it (R77, R399)? -/
def State.planReady (s : State) (r : PlanRec) (n : Stroke) : Bool :=
  let v := (s.part (gaPart r.src)).sem r.readySem.toNat
  v.stroke = n && r.readyCount.toNat ≤ v.count.toNat

/-- The packets of a transfer: at most eight granules each, in ascending order (R306). -/
def State.planPackets (s : State) (n : Nat) (r : PlanRec) (stroke : Stroke) (type vc : Nat) : List Packet :=
  let k := gaPart r.src
  let total := r.total.toNat
  let gs := (chunksOf 128 total ((s.part k).sp.readN (gaSpOff r.src) (128 * total))).map granuleOf
  (chunksOf 8 ((total + 7) / 8) gs).zipIdx.map fun c =>
    { type := BitVec.ofNat 8 type, vc := BitVec.ofNat 2 vc, hops := 0#3, cls := 0#2, dst := BitVec.ofNat 10 (gaModule r.dst), src := s.me,
      spart := BitVec.ofNat 4 k, dpart := 0#4, gen := 0#12, txn := 0#16, status := 0#4, addr := r.dst + BitVec.ofNat 56 (1024 * c.2),
      arg := BitVec.ofNat 120 (stroke.toNat * 2 ^ 72 + r.sigInc.toNat * 2 ^ 56 + r.sigSem.toNat * 2 ^ 43 + r.sigEn.toNat * 2 ^ 42 +
        total * 2 ^ 18 + n * 4),
      payload := c.1 }

/-- Packets of a transfer sent in its slot: at 40 ns after the slot start and while they end 40 ns before its end and the replay buffer has room for
them (R52, R304); what then remains. -/
def sendSlot (port last : Nat) : List Packet → State → State × List Packet
  | [], s => (s, [])
  | p :: rest, s =>
    let t := s.time.ft.toNat + s.packetNs port p
    if t ≤ last && s.replayRoom (s.port port) p then sendSlot port last rest ((s.transmit port p).reach t) else (s, p :: rest)

/-- The last granules of packets, which link replay has kept from the slot (R304): whole packets that lie in the last n granules, and those that do
not. -/
def splitLast (ps : List Packet) (n : Nat) : List Packet × List Packet :=
  let total := (ps.map fun p => p.payload.length).sum
  (ps.filter fun p => (ps.takeWhile (· ≠ p) |>.map fun q => q.payload.length).sum + p.payload.length + n ≤ total,
   ps.filter fun p => !((ps.takeWhile (· ≠ p) |>.map fun q => q.payload.length).sum + p.payload.length + n ≤ total))

/-- Packets of a planned transfer sent on as LATE packets on VC1, and the transfer counted as late (R54, R304). -/
def State.sendLate (s : State) (ps : List Packet) : State :=
  if ps.isEmpty then s
  else ps.foldl (fun s p => s.forward { p with type := 0x11#8, vc := 1#2 } none) (s.count (modCtr 0x0006 0))

/-- The reserved slot of a transfer on one of this module's ports runs: its packets leave from 40 ns after the slot start, SLOT_END marks their end, and
what `held` and the room in the slot leave over goes on VC1. Then waiting packets may use the rest of the slot (R53, R304). -/
def State.runSlot (s : State) (h : HopRec) (ps : List Packet) (held : Nat) : State :=
  let port := h.port.toNat
  let k := h.slot.toNat
  let t := s.slotAt s.time.stroke.toNat k
  let cut := splitLast ps held
  let r := sendSlot port (t + 1000 * s.domain.slotLen.toNat - 40) (cut.1.map fun p => { p with hops := p.hops + 1#3 }) (s.reach (t + 40))
  let rest := (r.2.map fun p => { p with hops := p.hops - 1#3 }) ++ cut.2
  let s := (r.1.emit (.ctl port .slotEnd)).modPort port fun x => { x with slotDone := some (s.time.stroke, k) }
  (s.sendLate rest).drainWaiting

/-- SLOT_START (R51, R52, R304, R399): at its first hop the source sends the transfer if its data is ready, else it is late; at a later hop the packets
held in the VC0 buffer leave (R303). -/
def execSlotStart (e : SlotEvent) (s : State) : Res :=
  .next (match s.planRec e.plan.toNat with
    | none => s
    | some r =>
      match s.planHop r with
      | none => s
      | some (h, 0) =>
        if s.slotsOn h.port.toNat && s.planReady r s.time.stroke then
          s.runSlot h (s.planPackets e.plan.toNat r s.time.stroke 0x10 0) e.held.toNat
        else { s.reach (s.slotAt s.time.stroke.toNat h.slot.toNat) with
          mem := { s.mem with lates := s.mem.lates ++ [(e.plan.toNat, s.time.stroke)] } }
      | some (h, _) =>
        let mine (q : Transit) : Bool := (xferArg q.pkt.arg).plan = e.plan
        let ps := (s.fab.vc0.filter mine).map (·.pkt)
        let s := { s with fab := { s.fab with vc0 := s.fab.vc0.filter fun q => !mine q } }
        if s.slotsOn h.port.toNat then s.runSlot h ps e.held.toNat else s.sendLate ps)

/-- LATE_TRANSFER (R54): a transfer whose slot has passed travels on VC1 as soon as its data is ready, and is counted. Of a plan's transfers that wait,
the oldest that is ready goes. -/
def execLateTransfer (plan : BitVec 16) (s : State) : Res :=
  .next (match s.planRec plan.toNat with
    | some r =>
      match s.mem.lates.find? fun l => l.1 = plan.toNat && s.planReady r l.2 with
      | some l => { s with mem := { s.mem with lates := s.mem.lates.erase l } }.sendLate (s.planPackets plan.toNat r l.2 0x11 1)
      | none => s
    | none => s)

end Sys2Proof.Machine
end

