-- ==== Sys2Proof/Machine/Links.lean ====
section
/-! DEFINITION. Links.lean: the fabric ports: control words, replay, training, faults and link keys (spec/12 R289, R304, R310 to R320, spec/20
R519). -/
namespace Sys2Proof.Machine

/-! ## Who is at the far end -/

/-- Is a physical port a twin port? -/
def State.isTwin (s : State) (port : Nat) : Bool := s.label.variant.isTwinPort port

/-- The side, module and logical port that a port must face (R292 to R294); none for an unused port. -/
def State.facing (s : State) (port : Nat) : Option (Bool × BitVec 10 × Nat) :=
  if s.isTwin port then if s.twinned then some (!s.side, s.me, 15) else none
  else (neighbour s.size s.me.toNat (s.logicalOf port)).map fun f => (s.side, BitVec.ofNat 10 f.1, f.2)

/-- The IDENTITY that MODULES gives for a side and module ID (R393). -/
def State.identityOf (s : State) (side : Bool) (m : BitVec 10) : Option (BitVec 512) :=
  s.boot.plate.bind fun p => (p.modules.find? fun e => e.side = side && e.module = m).map (·.identity)

/-- Is this module the end with the lower (side, module ID), which offers a link key (R519)? -/
def State.offers (s : State) (port : Nat) : Bool :=
  match s.facing port with
  | some (side, m, _) => (s.side.toNat * 1024 + s.me.toNat) < side.toNat * 1024 + m.toNat
  | none => false

/-! ## Reports (R316, R317, Table 12.1) -/

/-- Die code of the link die of a port (Table 1.5). -/
def linkDie (port : Nat) : Nat := 0x40 + port / 4

/-- The notice of a link fault: SPACE 0x01, the code, the port's die and engine code, the lane mask. Which lanes the mask of a report on the whole port
names the spec does not say (R316; notes/assumptions/35): all four for 0x05, the good lanes for 0x06 to 0x0B, those in use for 0x0C to 0x0E. -/
def linkNotice (port code mask : Nat) : Notice :=
  { space := 1#8, code := BitVec.ofNat 8 code, die := BitVec.ofNat 8 (linkDie port), engine := BitVec.ofNat 8 (port % 4),
    detail := BitVec.ofNat 32 mask }

/-- WIDTH of a number of lanes (Table 12.1). -/
def widthCode (w : Nat) : BitVec 2 := if w = 4 then 0#2 else if w = 2 then 1#2 else 2#2

/-- STATE and WIDTH of a logical port of this module as its physical ports are now. -/
def State.ownEntry (s : State) (j : Nat) : LinkEntry :=
  let ws := (s.physical j).map fun p => (s.port p).width
  let old := s.linkEntry s.me.toNat j
  if j < 15 && (neighbour s.size s.me.toNat j).isNone then ⟨2#2, 0#2, false⟩
  else if s.logicalUp j then ⟨1#2, widthCode (ws.foldl min 4), old.slots⟩ else ⟨0#2, 0#2, old.slots⟩

/-- The byte of a link-state entry. -/
def LinkEntry.byte (e : LinkEntry) : Nat := e.state.toNat * 64 + e.width.toNat * 16 + e.slots.toNat * 8

/-- The state of a port's logical port noted here at once, its counter (0x0045), and a change of its state or width reported to the manager, of a twin
port too (R295, R317, R318); `always`: reported even where it has not changed. -/
def State.noteLink (s : State) (port : Nat) (always : Bool := false) : State :=
  let j := s.logicalOf port
  let e := s.ownEntry j
  let old := s.linkEntry s.me.toNat j
  let s := { s with fab := { s.fab with links := SMap.set s.fab.links (32 * s.me.toNat + j) e .zero } }
  let s := s.level ⟨0x0045, 0xFF, 0xFF, port⟩ e.byte
  if e.state = old.state && e.width = old.width && !always then s
  else if s.isTwin port then s.tell (.twinPort (e.state = 1#2))
  else s.send s.ae.manager (.portState ⟨s.me, BitVec.ofNat 5 j, e.state, e.width, e.slots⟩)

/-! ## Down, replay, retrain (R312, R313) -/

/-- A packet that was on its way out of a port that went down is routed afresh (R297, R312), in the receive buffer that it still occupies. -/
def reroute (s : State) (w : Packet × Option (Nat × Packet)) : State := s.forward { w.1 with hops := w.1.hops - 1#3 } w.2

/-- The planned transfers whose packets stand among those of a replay buffer. -/
def plansIn (ps : List Packet) : List (BitVec 16 × Stroke) :=
  (ps.map fun p => ((xferArg p.arg).plan, (xferArg p.arg).stroke)).eraseDups

/-- A port goes down: reported, and its traffic rerouted, that of planned transfers as late transfers (R54). -/
def State.portDown (s : State) (port : Nat) (always : Bool := false) : State :=
  let sent := (s.port port).replay.map (·.pkt)
  let mine := s.fab.waiting.filter fun w => w.port = port
  let s := s.modPort port fun x =>
    { x with phase := .down, phaseAt := s.time.mono, wasUp := false, width := 0, lanes := 0#4, replay := [], exch := none }
  let s := { s with fab := { s.fab with waiting := s.fab.waiting.filter fun w => w.port ≠ port } }
  let s := s.noteLink port always
  let moved := ((sent.filter fun p => p.vc ≠ 0#2).map fun p => (p, (none : Option (Nat × Packet)))) ++ mine.map fun w => (w.pkt, w.inb)
  let s := moved.foldl reroute s
  let slotted := (sent.filter fun p => p.vc = 0#2).map fun p => { p with hops := p.hops - 1#3 }
  (plansIn slotted).foldl (fun s k => s.sendLate (slotted.filter fun p => ((xferArg p.arg).plan, (xferArg p.arg).stroke) = k)) s

/-- A port begins to train, keeping what it has to replay (R313); one that was UP keeps its equalisation. -/
def State.retrain (s : State) (port : Nat) : State :=
  s.modPort port fun x => { x with phase := .detect, phaseAt := s.time.mono, wasUp := x.wasUp || x.phase = .up }

/-- The packets acknowledged by an LSEQ leave the replay buffer (R312). -/
def ackTo (seq : BitVec 12) (l : List Replay) : List Replay :=
  if l.any fun r => r.lseq = seq then (l.dropWhile fun r => r.lseq ≠ seq).drop 1 else l

/-- One packet sent again under a new count (R312, R319). -/
def replayOne (port : Nat) (s : State) (r : Replay) : State :=
  let tail := s.tailOf port r.pkt r.lseq
  ((s.modPort port fun x => { x with keyCount := x.keyCount + 1 }).count ⟨0x0043, 0xFF, 0xFF, port⟩).emit (.packet port r.pkt tail)

/-- Every packet of the replay buffer sent again, in order. -/
def State.replayAll (s : State) (port : Nat) : State :=
  let l := (s.port port).replay
  (l.foldl (replayOne port) s).modPort port fun x => { x with replay := x.replay.map fun r => { r with replays := r.replays + 1 } }

/-! ## Control words (Table 12.8) -/

/-- IDLE: carries nothing. -/
def execIdle (port : BitVec 5) (s : State) : Res := inPort s port.toNat s

/-- ACK (R312): the acknowledged packets leave the replay buffer. -/
def execControlAck (port : BitVec 5) (lseq : BitVec 12) (s : State) : Res :=
  inPort s port.toNat (s.modPort port.toNat fun x => { x with replay := ackTo lseq x.replay }).drainWaiting

/-- NACK (R312): every packet after the acknowledged one is sent again, in order. -/
def execControlNack (port : BitVec 5) (lseq : BitVec 12) (s : State) : Res :=
  inPort s port.toNat ((s.modPort port.toNat fun x => { x with replay := ackTo lseq x.replay }).replayAll port.toNat)

/-- The later of two cumulative credit counts, which wrap at 2^32 (notes/assumptions/65). -/
def laterCount (old new : Nat) : Nat := if (new + 2 ^ 32 - old) % 2 ^ 32 < 2 ^ 31 then new else old

/-- CREDIT (R300, R311): the cumulative credits of a VC and hop class; what waited for them is sent. The spec gives no width or wrap of the count; it is
taken as the units freed, of 32 bits (notes/assumptions/65). -/
def execCredit (port : BitVec 5) (vc : BitVec 2) (hop : BitVec 3) (count : BitVec 32) (s : State) : Res :=
  let k := vcKey vc.toNat hop.toNat
  inPort s port.toNat (s.modPort port.toNat fun x =>
    { x with granted := SMap.insert x.granted k (laterCount (SMap.get x.granted k 0) count.toNat) }).drainWaiting

/-- SLOT_END (R304): the VC0 transfer of the far end's slot has ended. -/
def execSlotEnd (port : BitVec 5) (s : State) : Res :=
  inPort s port.toNat (s.modPort port.toNat fun x => { x with slotEnded := true })

/-- RETRAIN (R313): the far end asks for a retrain. -/
def execRetrain (port : BitVec 5) (s : State) : Res := inPort s port.toNat (s.retrain port.toNat)

/-- The next key of the direction towards here comes into use (R319). -/
def PortState.swapIn (x : PortState) : PortState :=
  match x.exch.bind (·.keys) with
  | some k => { x with keyIn := some k.2, exch := if x.keyOut = some k.1 then none else x.exch }
  | none => x

/-- KEYSWAP (R319): the far end's packets come under the next key from here on. -/
def execKeyswap (port : BitVec 5) (s : State) : Res := inPort s port.toNat (s.modPort port.toNat PortState.swapIn)

/-! ## Faults in service (R312, R316, R320) -/

/-- LINK_CRC_FAILURE (R312, R320): the packet and every later one are discarded, and NACK names the last received in order. -/
def execLinkCrcFailure (port : BitVec 5) (tagFailed : Bool) (s : State) : Res :=
  let p := port.toNat
  let now := s.time.mono
  let s1 := s.modPort p fun x =>
    { x with tagFails := if tagFailed then now :: x.tagFails.filter fun t => now.toNat < t.toNat + 1000000000 else x.tagFails }
  inPort s p ((s1.count ⟨0x0042, 0xFF, 0xFF, p⟩).emit (.ctl p (.nack (s.port p).rxSeq)))

/-- REPLAY_LIMIT (R312): a packet replayed 8 times in a row makes the port retrain, with code 0x0C. -/
def execReplayLimit (port : BitVec 5) (s : State) : Res :=
  let p := port.toNat
  inPort s p
    (if (s.port p).replay.any fun r => 8 ≤ r.replays then
      ((((s.modPort p fun x => { x with replay := x.replay.map fun r => { r with replays := 0 } }).event
        (linkNotice p 0x0C (s.port p).lanes.toNat)).emit (.ctl p .retrain)).retrain p)
    else s)

/-- LANE_DEGRADED (R316, code 0x03): more than 16 FEC-uncorrectable codewords in 1 s; the port retrains without the lane. -/
def execLaneDegraded (port : BitVec 5) (lane : BitVec 2) (s : State) : Res :=
  let p := port.toNat
  let s1 := s.modPort p fun x => { x with dropped := x.dropped ||| (1#4 <<< lane.toNat) }
  inPort s p ((((s1.count ⟨0x0044, 0xFF, 0xFF, p⟩ 17).alarm (linkNotice p 0x03 (2 ^ lane.toNat))).emit (.ctl p .retrain)).retrain p)

/-- LOSS_OF_LOCK (R316, code 0x0E): the port is down and its traffic rerouted. -/
def execLossOfLock (port : BitVec 5) (s : State) : Res :=
  let p := port.toNat
  inPort s p ((s.alarm (linkNotice p 0x0E (s.port p).lanes.toNat)).portDown p)

/-- A port held down until the next start with code 0x0D (R320, R519). -/
def State.authFail (s : State) (port : Nat) : State :=
  ((s.alarm (linkNotice port 0x0D (s.port port).lanes.toNat)).modPort port fun x => { x with heldDown := true }).portDown port

/-- AUTH_FAILURE_LIMIT (R320): 8 tag failures within 1 s. -/
def execAuthFailureLimit (port : BitVec 5) (s : State) : Res :=
  let p := port.toNat
  let now := s.time.mono
  inPort s p
    (if 8 ≤ ((s.port p).tagFails.filter fun t => now.toNat ≤ t.toNat + 1000000000).length then s.authFail p else s)

/-! ## Link keys (R319, R519) -/

/-- The bytes of an ASCII string. -/
def ascii (t : String) : List Byte := t.toList.map fun c => BitVec.ofNat 8 c.toNat

/-- What ML-DSA-87 signs for a context and a message (R501 and the notes of Table 20.9's chapter): context length, context, message. -/
def signed (ctx : String) (m : List Byte) : List Byte := [0#8, BitVec.ofNat 8 ctx.length] ++ ascii ctx ++ m

/-- The hash that both ends of a link sign: SHA3-512 of the OFFER and the ANSWER body before its signature. -/
def linkHash (o : LinkOffer) (ctext : BitVec 12544) (pubKey : BitVec 20736) : BitVec 512 :=
  Config.sha3 (leBytes 1568 o.ekey.toNat ++ leBytes 2592 o.pubKey.toNat ++ leBytes 1568 ctext.toNat ++ leBytes 2592 pubKey.toNat)

/-- The keys of the two directions, from the offering end and towards it: bytes 0 to 31 and 32 to 63 of SHA3-512(ss ‖ hash). -/
def linkKeys (ss : BitVec 256) (hash : BitVec 512) : BitVec 256 × BitVec 256 :=
  let k := Config.sha3 (leBytes 32 ss.toNat ++ leBytes 64 hash.toNat)
  (k.extractLsb' 0 256, k.extractLsb' 256 256)

/-- This module's identity public key. -/
def State.pubKey (s : State) : BitVec 20736 := Config.idPubKey s.label.identity

/-- SHA3-512 of a public key. -/
def keyHash (k : BitVec 20736) : BitVec 512 := Config.sha3 (leBytes 2592 k.toNat)

/-- Is a public key the identity key that MODULES gives for the far end of a port (R519)? -/
def State.farKeyOk (s : State) (port : Nat) (k : BitVec 20736) : Bool :=
  match s.facing port with
  | some (side, m, _) => s.identityOf side m = some (keyHash k)
  | none => false

/-- The counts of a port that comes up without having been up before this training: the buffers of both ends are empty, and LSEQ and credits begin anew
(notes/assumptions/65). -/
def PortState.afresh (x : PortState) : PortState :=
  { x with txSeq := 0#12, rxSeq := 0xFFF#12, granted := [], used := [], given := [], slotEnded := true }

/-- A port in service after training: its traffic replayed at the new width, what waits sent (Table 12.2, R312). -/
def State.portUpNow (s : State) (port : Nat) : State :=
  let s := s.modPort port fun x =>
    { if x.wasUp then x else x.afresh with phase := .up, phaseAt := s.time.mono, wasUp := false }
  let s := s.noteLink port
  let l := (s.port port).replay
  (l.foldl (replayOne port) s).drainWaiting

/-- A link key exchange begins at the offering end: a fresh encapsulation key and the identity key. -/
def State.sendOffer (s : State) (port : Nat) : State :=
  let f := s.fresh
  let o : LinkOffer := { ekey := Config.mlkemKey f.1, pubKey := s.pubKey }
  (f.2.modPort port fun x => { x with exch := some ⟨f.1, o, 0#512, none, false⟩ }).emit (.linkKey port (.offer o))

/-- The direction away from here comes under the keys of a complete exchange: in training both directions at once, in service this one at
the KEYSWAP sent now (R319, R519). -/
def State.useKeys (s : State) (port : Nat) (k : BitVec 256 × BitVec 256) : State :=
  if (s.port port).phase = .key then
    (s.modPort port fun x =>
      { x with keyOut := some k.1, keyIn := some k.2, keyAt := s.time.mono, keyCount := 0, exch := none }).portUpNow port
  else
    (s.modPort port fun x => { x with keyOut := some k.1, keyAt := s.time.mono, keyCount := 0 }).emit (.ctl port .keyswap)

/-- LINK_OFFER (R519): the other end checks the identity, encapsulates, signs and answers. -/
def execLinkOffer (port : BitVec 5) (r : LinkOffer) (s : State) : Res :=
  let p := port.toNat
  let live := (s.port p).phase = .key || (s.port p).phase = .up
  inPort s p
    (if !live || s.offers p then s
    else if !s.farKeyOk p r.pubKey then s.authFail p
    else
      let f := s.fresh
      let e := Config.mlkemEncaps r.ekey f.1
      let h := linkHash r e.1 s.pubKey
      let k := linkKeys e.2 h
      let sig := Config.mldsaSign s.label.identity (signed "SKZ link" (leBytes 64 h.toNat))
      (f.2.modPort p fun x => { x with exch := some ⟨f.1, r, h, some (k.2, k.1), false⟩ }).emit
        (.linkKey p (.answer { ctext := e.1, pubKey := s.pubKey, sig := sig })))

/-- LINK_ANSWER (R519): the offering end checks identity and signature, takes the keys and confirms. -/
def execLinkAnswer (port : BitVec 5) (r : LinkAnswer) (s : State) : Res :=
  let p := port.toNat
  inPort s p
    (match (s.port p).exch with
    | none => s
    | some x =>
      if !s.offers p || x.keys.isSome then s
      else
        let h := linkHash x.offer r.ctext r.pubKey
        let m := signed "SKZ link" (leBytes 64 h.toNat)
        if !(s.farKeyOk p r.pubKey && Config.mldsaVerify r.pubKey m r.sig) then s.authFail p
        else
          let k := linkKeys (Config.mlkemDecaps x.counter r.ctext) h
          let s := s.modPort p fun y => { y with exch := some { x with hash := h, keys := some k, sealed := true } }
          (s.emit (.linkKey p (.confirm (Config.mldsaSign s.label.identity m)))).useKeys p k)

/-- LINK_CONFIRM (R519): the offering end's signature completes the exchange at the other end. -/
def execLinkConfirm (port : BitVec 5) (sig : BitVec 37016) (s : State) : Res :=
  let p := port.toNat
  inPort s p
    (match (s.port p).exch with
    | none => s
    | some x =>
      match x.keys with
      | none => s
      | some k =>
        if s.offers p || x.sealed then s
        else if !Config.mldsaVerify x.offer.pubKey (signed "SKZ link" (leBytes 64 x.hash.toNat)) sig then s.authFail p
        else (s.modPort p fun y => { y with exch := some { x with sealed := true } }).useKeys p k)

/-- Packets under a key from which on its exchange is begun, so that the next key is there before 2^48 (R319; notes/assumptions/64). -/
def rekeyCount : Nat := 2 ^ 47

/-- LINK_REKEY (R319): the offering end begins a new exchange while traffic runs, on the count of packets or 24 h after the key came into use. -/
def execLinkRekey (port : BitVec 5) (s : State) : Res :=
  let p := port.toNat
  inPort s p (if s.sec.setup.linkEnc && (s.port p).phase = .up && s.offers p then
      (if rekeyCount ≤ (s.port p).keyCount then s else s.reachMono ((s.port p).keyAt.toNat + 86400000000000)).sendOffer p
    else s)

/-! ## Training (R313 to R315, Tables 12.9, 12.10) -/

/-- The lowest-numbered n lanes of a mask (R315). -/
def lowestLanes (mask : BitVec 4) : Nat → List Nat → BitVec 4
  | 0, _ => 0#4
  | _, [] => 0#4
  | n + 1, l :: r => if mask.getLsbD l then (1#4 <<< l) ||| lowestLanes mask n r else lowestLanes mask (n + 1) r

/-- The greatest width for a number of good lanes (R315). -/
def widthFor (n : Nat) : Nat := if 4 ≤ n then 4 else if 2 ≤ n then 2 else n

/-- Lanes of a mask. -/
def laneCount (m : BitVec 4) : Nat := ((List.range 4).filter fun l => m.getLsbD l).length

/-- The fault that CHECK finds, which holds the port down (R314, Table 12.10). -/
def State.checkFault (s : State) (port : Nat) (o : TrainObs) : Option Nat :=
  match s.facing port with
  | none => none
  | some (side, m, j) =>
    if o.looped then some 0x07
    else if o.twoFar then some 0x08
    else if (s.boot.plate.map (·.header.domainId)).getD 0#16 ≠ o.farDomain || o.farSide ≠ side ||
        (!s.isTwin port && o.farPorts.toNat ≠ s.label.variant.ports) then some 0x0A
    else if o.farModule ≠ m || o.farPort.toNat ≠ j then some 0x09
    else none

/-- An alarm of a lane mask, if any lane is in it. -/
def State.laneAlarm (s : State) (port code : Nat) (mask : BitVec 4) : State :=
  if mask = 0#4 then s else s.alarm (linkNotice port code mask.toNat)

/-- A fault that holds the port down until its next training. -/
def State.trainFault (s : State) (port code : Nat) (good : BitVec 4) : State := (s.alarm (linkNotice port code good.toNat)).portDown port

/-- Time limit of a training state in ns (Table 12.9); a retrain of a port that was UP takes at most 20 ms in all (R313). -/
def PortState.limit (x : PortState) : Nat :=
  if x.wasUp then 20000000
  else match x.phase with
    | .detect | .check => 1000000
    | .equalise => 100000000
    | .align => 5000000
    | _ => 20000000

/-- A port enters its next training state; the time of a retrain runs on. -/
def State.enter (s : State) (port : Nat) (f : PortState → PortState) : State :=
  s.modPort port fun x => { f x with phaseAt := if x.wasUp then x.phaseAt else s.time.mono }

/-- The training blocks that the lanes of a port send in ALIGN. -/
def State.blockOf (s : State) (port : Nat) : TrainBlock :=
  { domain := (s.boot.plate.map (·.header.domainId)).getD 0#16, side := s.side, module := s.me, logical := s.logicalOf port, physical := port,
    lanes := (s.port port).lanes, ports := s.label.variant.ports, encrypt := s.sec.setup.linkEnc }

/-- One training state of a port passed (Table 12.9): DETECT finds the lanes that survive; EQUALISE, which a retrain keeps, leads to ALIGN, where training
blocks leave and polarity and lane order are found; CHECK tests the far end and sets the width (R314, R315); DELAY the delay; then KEY when the domain
encrypts, else UP. -/
def trainStep (port : Nat) (o : TrainObs) (s : State) : State :=
  let x := s.port port
  let align (s : State) : State := (s.enter port fun x => { x with phase := .align }).emit (.training port (s.blockOf port))
  match x.phase with
  | .detect =>
    let s := (s.laneAlarm port 0x01 o.shorted).laneAlarm port 0x02 o.open_
    let left := ~~~(o.shorted ||| o.open_ ||| x.dropped)
    if o.txToTx then s.trainFault port 0x06 left
    else if left = 0#4 then s.portDown port
    else
      let s := s.modPort port fun x => { x with lanes := left }
      if x.wasUp then align s else s.enter port fun x => { x with phase := .equalise }
  | .equalise => align s
  | .align =>
    let s := if o.inverted = 0#4 then s else s.event (linkNotice port 0x04 o.inverted.toNat)
    let s := if o.permuted then s.event (linkNotice port 0x05 15) else s
    s.enter port fun x => { x with phase := .check, inverted := o.inverted }
  | .check =>
    let good := o.farGood &&& x.lanes
    match s.checkFault port o with
    | some c => s.trainFault port c good
    | none =>
      let w := widthFor (laneCount good)
      if w = 0 then s.portDown port
      else s.enter port fun x => { x with phase := .delay, width := w, lanes := lowestLanes good w [0, 1, 2, 3] }
  | .delay =>
    if 250 < o.delayNs then s.trainFault port 0x0B x.lanes
    else
      let s := s.modPort port fun x => { x with delayNs := o.delayNs }
      if s.sec.setup.linkEnc then
        let s := s.enter port fun x => { x with phase := .key, exch := none }
        if s.offers port then s.sendOffer port else s
      else s.portUpNow port
  | .down | .key | .up => s

/-- A port trains through as many states as `o` says; one that is down or up begins with DETECT. An unused port is only noted as such (R295), and one held
down waits for the next start (R320). -/
def State.train (s : State) (port : Nat) (o : TrainObs) : State :=
  let x := s.port port
  if (s.facing port).isNone then s.noteLink port
  else if x.heldDown then s
  else
    let s := if x.phase = .down || x.phase = .up then s.retrain port else s
    Nat.repeat (trainStep port o) o.states s

/-- PORT_TRAINING (R313). -/
def execPortTraining (port : BitVec 5) (obs : TrainObs) (s : State) : Res := inPort s port.toNat (s.train port.toNat obs)

/-- TRAINING_STATE_TIMEOUT (R313): a state that exceeds its time limit takes the port down, and it is reported. -/
def execTrainingStateTimeout (port : BitVec 5) (s : State) : Res :=
  let p := port.toNat
  let x := s.port p
  inPort s p (if x.phase = .up || x.phase = .down then s else (s.reachMono (x.phaseAt.toNat + x.limit)).portDown p true)

/-- TRAINING_RETRY_TIMER (R313): 10 s after it went down a port that is down trains again. -/
def execTrainingRetryTimer (port : BitVec 5) (obs : TrainObs) (s : State) : Res :=
  let p := port.toNat
  inPort s p (if (s.port p).phase = .down then (s.reachMono ((s.port p).phaseAt.toNat + 10000000000)).train p obs else s)

end Sys2Proof.Machine
end

