-- ==== Sys2Proof/Machine/Directory.lean ====
section
/-! DEFINITION. Directory.lean: the directory batches, link-state batches and migration (spec/10 R249 to R266, spec/12 R295, R317, spec/08
R203). -/
namespace Sys2Proof.Machine

/-! ## Migration at the homes (R260 to R265) -/

/-- A granule of the old frame read for the transfer: one found uncorrectable goes as zeros, and the block is fenced (R264). -/
def State.moveGranule (s : State) (m : Migration) (g : Nat) : State × Granule :=
  match s.readGranule m.oldFrame.toNat g [] 0 with
  | (s, some d) => (s, granuleOf d)
  | (s, none) => (s.fence m.block, 0#1024)

/-- Granules g, g + 1, … of the old frame read in order. -/
def State.moveRun (s : State) (m : Migration) (g : Nat) : Nat → State × List Granule
  | 0 => (s, [])
  | n + 1 =>
    let d := s.moveGranule m g
    let r := d.1.moveRun m (g + 1) n
    (r.1, d.2 :: r.2)

/-- One write of a transfer: eight granules at class 3 (Table 10.9). GEN carries the run of the transfer, which its response echoes. -/
def State.moveWrite (m : Migration) (s : State) (k : Nat) : State :=
  let d := s.moveRun m (8 * k) 8
  let p : Packet :=
    { type := 2#8, vc := 1#2, hops := 0#3, cls := 3#2, dst := m.newMod, src := s.me, spart := 0xF#4, dpart := 0#4, gen := m.run,
      txn := BitVec.ofNat 16 k, status := 0#4, addr := BitVec.ofNat 56 (m.block * blockBytes + 1024 * k), arg := 0#120, payload := d.2 }
  (d.1.sendPacket p).state

/-- Granules of a frame on the subchannels of a partition. -/
def State.granulesOn (s : State) (frame p : Nat) : Nat :=
  (List.range 16384).countP fun g => (s.placeOfGranule frame g).any fun pl => pl.part = p

/-- A frame of this module copied into another of its frames: granules that are found uncorrectable are zeros there (R264). -/
def State.copyFrame (s : State) (m : Migration) : State :=
  let hurt := ((s.mem.errs.filter fun e => e.frame = m.oldFrame).map fun e => e.noise.granule).eraseDups
  let s := { s with mem := { s.mem with mem := s.mem.mem.copyRange (m.oldFrame.toNat * blockBytes) (m.newFrame.toNat * blockBytes) blockBytes } }
  let s := (List.range s.label.variant.parts).foldl (fun s p =>
    (s.count ⟨0x0022, p, 0xFF, 0⟩ (128 * s.granulesOn m.oldFrame.toNat p)).count ⟨0x0023, p, 0xFF, 0⟩ (128 * s.granulesOn m.newFrame.toNat p)) s
  hurt.foldl (fun s g => let d := s.moveGranule m g; d.1.writeGranule m.newFrame.toNat g (granuleBytes d.2)) s

/-- The old home starts, or starts again, the transfer of a frozen block, its 16,384 granules in ascending order; to a frame of its own it copies at
once. -/
def State.startTransfer (s : State) (m : Migration) : State :=
  let m := { m with run := m.run + 1#12 }
  let s := s.modMig m.block fun x => { x with run := m.run, moved := if m.newMod = s.me then 16384 else 0, complete := false }
  if m.newMod = s.me then s.copyFrame m else (List.range 2048).foldl (State.moveWrite m) s

/-- The home caches of this module's DEs forget a block that an update taking effect names (R250). -/
def State.forgetHome (s : State) (b : Nat) : State := s.mapParts fun x => { x with de := { x.de with homeCache := SMap.erase x.de.homeCache b } }

/-- A freeze takes effect (MIGRATION_FREEZE): every module notes the migration, and the old home begins the transfer. -/
def State.freezeBlock (s : State) (u : DirUpdate) : State :=
  let b := u.block.toNat
  let e := s.dirEntry b
  let m : Migration := { block := b, oldMod := dirModule e, oldFrame := BitVec.ofNat 20 (dirFrame e), newMod := u.module, newFrame := u.frame,
                         frozenAt := u.stroke, moved := 0, run := 0#12, complete := false, switched := false, through := false, doomed := false }
  let s := { s with mem := { s.mem with migs := s.mem.migs.filter (fun x => x.block ≠ b) ++ [m] } }
  if m.oldMod = s.me then s.startTransfer m else s

/-- The freeze-queue entries of a block. -/
def State.queueOf (s : State) (b : Nat) : List FreezeEntry := s.mem.freezeQ.filter fun e => gaBlock e.addr = b

/-- Entries of a block gone from the freeze queue. -/
def State.dropQueue (s : State) (b : Nat) : State := { s with mem := { s.mem with freezeQ := s.mem.freezeQ.filter fun e => gaBlock e.addr ≠ b } }

/-- A migration no longer known here. -/
def State.dropMig (s : State) (b : Nat) : State := { s with mem := { s.mem with migs := s.mem.migs.filter fun m => m.block ≠ b } }

/-- A capture takes the granules of a moving block that it still has to copy, before its old frame goes (notes/assumptions/30). -/
def Capture.takeBlock (s : State) (b : Nat) (c : Capture) : Capture :=
  let mine := c.left.filter fun a => gaBlock a = b
  let val (a : GAddr) : List Byte :=
    match SMap.find s.mem.touch (gaGranule a) with
    | some g => granuleBytes g
    | none => (match s.homeOf b with
      | some h => s.mem.mem.readN (h.2 * blockBytes + gaInBlock a) 128
      | none => [])
  { c with left := c.left.filter fun a => gaBlock a ≠ b, copied := c.copied ++ mine.map fun a => (a, val a) }

/-- The old home sends the block's freeze queue with its fence and proof protection to the new home (R260, R264). -/
def State.sendQueue (s : State) (m : Migration) : State :=
  let prot := (s.mem.protect.filter fun g => gaBlock (granuleAddr g) = m.block).map granuleAddr
  s.send m.newMod (.freezeQueue (BitVec.ofNat 32 m.block) (s.queueOf m.block) (s.mem.fenced.contains m.block) prot)

/-- The old home at the switch: captures take what they still have to copy of the block, and the freeze queue goes. -/
def State.leaveBlock (s : State) (m : Migration) : State :=
  { s with twin := { s.twin with captures := s.twin.captures.map (Capture.takeBlock s m.block) } }.sendQueue m

/-- A block of which this module is home no longer: its fence and proof protection have gone with it (R264). -/
def State.forgetBlock (s : State) (m : Migration) : State :=
  if m.newMod = s.me then s
  else { s with mem := { s.mem with protect := s.mem.protect.filter (fun g => gaBlock (granuleAddr g) ≠ m.block),
                                    fenced := s.mem.fenced.filter (· ≠ m.block) } }

/-- A switch takes effect (MIGRATION_SWITCH): the entry changes, the old home sends its queue, the new home holds requests until it has come;
elsewhere the migration is over. Before step 9 of start a switch without a freeze rehomes a block (R407). -/
def State.switchBlock (s : State) (u : DirUpdate) : State :=
  let b := u.block.toNat
  match s.migOf b with
  | none => if s.boot.step < 9 then s.setDirEntry b (dirMake (dirPinned (s.dirEntry b)) u.module u.frame) else s
  | some m =>
    let s := if m.oldMod = s.me then s.leaveBlock m else s
    let s := s.setDirEntry b (dirMake false u.module u.frame)
    let s := { s with mem := { s.mem with auth := if s.isManager then SMap.insert s.mem.auth b (dirMake false u.module u.frame) else s.mem.auth,
                                          lastMoved := SMap.insert s.mem.lastMoved b u.stroke } }
    let keep := m.oldMod = s.me || (m.newMod = s.me && !m.through) || s.isManager
    if keep then s.modMig b fun m => { m with switched := true } else s.dropMig b

/-- A cancel takes effect (MIGRATION_CANCEL): the old home applies its freeze queue to the old frame, in order, and the block thaws (R265). -/
def State.cancelBlock (s : State) (b : Nat) : State :=
  match s.migOf b with
  | none => s
  | some m =>
    let s := if m.oldMod = s.me then
        ((s.queueOf b).foldl (fun s e => s.writeGranule m.oldFrame.toNat (gaInBlock e.addr / 128) (granuleBytes e.data)) s).dropQueue b
      else s
    s.dropMig b

/-- A directory update takes effect (Table 10.5); home caches forget its block, whatever its kind (R250). -/
def State.applyDir (s : State) (u : DirUpdate) : State :=
  let s := s.forgetHome u.block.toNat
  match u.kind.toNat with
  | 0 => s.freezeBlock u
  | 1 => s.switchBlock u
  | 2 => s.cancelBlock u.block.toNat
  | _ => s

/-- A link-state change takes effect: another module's entry, or the SLOTS bit of an own port (R295, R317). -/
def State.applyLink (s : State) (c : LinkState) : State :=
  let k := 32 * c.module.toNat + c.port.toNat
  let old := s.linkEntry c.module.toNat c.port.toNat
  let e : LinkEntry := if c.module = s.me then { old with slots := c.slots } else ⟨c.state, c.width, c.slots⟩
  let s := { s with fab := { s.fab with links := SMap.set s.fab.links k e .zero } }
  if c.module = s.me then (s.physical c.port.toNat).foldl (fun s p => s.level ⟨0x0045, 0xFF, 0xFF, p⟩ e.byte) s else s

/-- A record takes effect. -/
def State.applyRec (s : State) (r : BatchRec) : State :=
  match r with
  | .dir u => s.applyDir u
  | .link c => s.applyLink c

/-! ## Batches (R251) -/

/-- Batches that wait, applied strictly in sequence order as far as their strokes have come (R251). -/
def State.applyBatches : Nat → State → State
  | 0, s => s
  | n + 1, s =>
    match s.mem.gotBatch.find? fun b => b.seq = s.mem.nextBatch && b.stroke.toNat ≤ s.time.stroke.toNat with
    | none => s
    | some b =>
      let s := b.recs.foldl State.applyRec s
      applyBatches n { s with mem := { s.mem with nextBatch := s.mem.nextBatch + 1#32, gotBatch := s.mem.gotBatch.erase b } }

/-- Every batch that may be applied now. -/
def State.applyDue (s : State) : State := s.applyBatches s.mem.gotBatch.length

/-- Has a sequence number not been applied or received yet? Numbers compare modulo 2^32 in a half-range. -/
def State.newBatch (s : State) (seq : BitVec 32) : Bool :=
  (seq - s.mem.nextBatch).toNat < 2 ^ 31 && !s.mem.gotBatch.any fun b => b.seq = seq

/-- A batch received: acknowledged, kept once, remembered for a succession (R266), applied when its turn and stroke have come. -/
def State.takeBatch (s : State) (b : Batch) : State :=
  let s := s.send s.ae.manager (.batchAck b.seq)
  if s.newBatch b.seq then
    { s with mem := { s.mem with gotBatch := s.mem.gotBatch ++ [b], sentBatch := b :: s.mem.sentBatch } }.applyDue
  else s

/-- DIRECTORY_UPDATE_BATCH (R251). A transfer that it starts meets the errors that come with it (R264). -/
def execDirectoryUpdateBatch (seq : BitVec 32) (us : DirUpdates) (s : State) : Res :=
  .next ((s.noteErrs us.errs).takeBatch ⟨seq, (us.recs.head?.map (·.stroke)).getD s.time.stroke, us.recs.map .dir⟩)

/-- LINK_STATE_BATCH (R295). -/
def execLinkStateBatch (seq : BitVec 32) (stroke : Stroke) (cs : List LinkState) (s : State) : Res :=
  .next (s.takeBatch ⟨seq, stroke, cs.map .link⟩)

/-- The manager broadcasts a batch: its own copy takes it too, and every other module of the domain is to acknowledge it. -/
def State.sendBatch (s : State) (stroke : Stroke) (recs : List BatchRec) : State :=
  if recs.isEmpty then s
  else
    let b : Batch := ⟨s.mem.nextSend, stroke, recs⟩
    let s := { s with mem := { s.mem with nextSend := s.mem.nextSend + 1#32, sentBatch := s.mem.sentBatch ++ [b],
                                          gotBatch := s.mem.gotBatch ++ [b], unacked := s.mem.unacked ++ s.others.map fun m => (b.seq, m) } }
    (s.broadcast (.batch b)).applyDue

/-- DIRECTORY_BATCH_RESEND (R251): the manager resends every unacknowledged batch to those that have not acknowledged it. -/
def execDirectoryBatchResend (s : State) : Res :=
  .next (if s.isManager then
      s.mem.unacked.foldl (fun s u =>
        match s.mem.sentBatch.find? fun b => b.seq = u.1 with
        | some b => s.send u.2 (.batch b)
        | none => s) s
    else s)

/-- BATCH_ACKNOWLEDGEMENT (R251): the batch is no longer resent to the module. -/
def execBatchAcknowledgement (module : BitVec 10) (seq : BitVec 32) (s : State) : Res :=
  let left := s.mem.unacked.filter fun u => !(u.1 = seq && u.2 = module)
  let keep (b : Batch) : Bool := left.any (fun u => u.1 = b.seq) || s.time.stroke.toNat ≤ b.stroke.toNat + 2
  .next { s with mem := { s.mem with unacked := left, sentBatch := s.mem.sentBatch.filter keep } }

/-! ## Migration events -/

/-- MIGRATION_TRANSFER_COMPLETE (R260): the old home reports to the manager once the last write of the transfer is acknowledged; the manager will
broadcast the switch in its next close. -/
def execMigrationTransferComplete (block : BitVec 32) (s : State) : Res :=
  let b := block.toNat
  .next (match s.migOf b with
    | none => s
    | some m =>
      if m.oldMod = s.me then
        if m.frozenAt.toNat ≤ s.time.stroke.toNat && !m.switched && 16384 ≤ m.moved then
          (s.modMig b fun m => { m with complete := true }).send s.ae.manager (.transferDone block)
        else s
      else if s.isManager then s.modMig b fun m => { m with complete := true } else s)

/-- FREEZE_QUEUE_RECEIVE (R260, R264): the new home applies the queue in order with the fence and the protection, then serves the held
requests in arrival order. A queue that comes while its frame is in reset is lost, and asked for again on the return (R265); one that comes again once
the whole queue is applied changes nothing. -/
def execFreezeQueueReceive (block : BitVec 32) (entries : List FreezeEntry) (fenced : Bool) (prot : List GAddr) (s : State) : Res :=
  let b := block.toNat
  .next (match s.migOf b with
    | none => s
    | some m =>
      if m.newMod ≠ s.me || m.through || s.frameHeld m.newFrame.toNat then s
      else
        let s := entries.foldl (fun s e => s.writeGranule m.newFrame.toNat (gaInBlock e.addr / 128) (granuleBytes e.data)) s
        let s := if fenced then s.fence b else s
        let s := { s with mem := { s.mem with protect := prot.foldl (fun l a => setInsert l (gaGranule a)) s.mem.protect } }
        let s := s.modMig b fun m => { m with through := true }
        let s := if m.switched && m.oldMod ≠ s.me && !s.isManager then s.dropMig b else s
        s.retryWaits fun w => w.why = .switching && gaBlock w.pkt.addr = b)

/-- The old home of a migration starts again what a reset at either home has broken off (R265): the transfer at granule 0, or, once the block has
switched, the sending of its freeze queue. -/
def State.resume (s : State) (b : Nat) : State :=
  match s.migOf b with
  | none => s
  | some m =>
    if m.oldMod ≠ s.me || m.doomed then s
    else if !m.switched then s.startTransfer m
    else if m.through then s
    else s.sendQueue m

/-- FRAME_FREE (R262): the old home, its queue sent and its accepted requests complete, reports its frame free; at the manager the frame may
be a destination from the next stroke boundary. -/
def execFrameFree (block : BitVec 32) (s : State) : Res :=
  let b := block.toNat
  .next (match s.migOf b with
    | none => s
    | some m =>
      if !m.switched then s
      else
        let s := if m.oldMod = s.me then ((s.dropQueue b).forgetBlock m).send s.ae.manager (.frameFree block) else s
        if m.newMod = s.me && !m.through then s
        else if m.oldMod = s.me || s.isManager then s.dropMig b else s)

/-- SKETCH_GAP_CLOSED (R203): one slab of a session is complete again; with none incomplete the SU no longer sets RING_MODE, and exclusion 0x9
ends (R343). -/
def execSketchGapClosed (port : BitVec 10) (slot : BitVec 15) (layer : BitVec 16) (head : BitVec 8) (s : State) : Res :=
  let key := 256 * layer.toNat + head.toNat
  let done := s.sess.list.filter fun x => x.port = port && x.slot = slot.toNat && x.incomplete = [key]
  let s := s.mapSessions fun x => if x.port = port && x.slot = slot.toNat then { x with incomplete := x.incomplete.filter (· ≠ key) } else x
  let whole (e : LedgerEntry) : Bool := done.any fun x => x.key = e.key
  let s := { s with ae := { s.ae with ledger := s.ae.ledger.map fun e => if whole e then { e with ring := false } else e } }
  .next (done.foldl (fun s x => s.endExcl 9 (some x.key)) s)

/-! ## The manager (R239, R260 to R266, R317) -/

/-- Is a link-state change one that keeps SLOTS set: up at full width (R317)? -/
def slotsFor (c : LinkState) : Bool := c.state = 1#2 && c.width = 0#2

/-- PORT_STATE_CHANGE (R317) at the manager: the change waits for the link-state broadcast of the next close; SLOTS is set for a port at full
width, and clear otherwise. -/
def execPortStateChange (c : LinkState) (s : State) : Res :=
  let same (d : LinkState) : Bool := d.module = c.module && d.port = c.port
  .next (if s.isManager then
      { s with mem := { s.mem with linkNews := s.mem.linkNews.filter (fun d => !same d) ++ [{ c with slots := slotsFor c }] } }
    else s)

/-- The frames inside a module's spreads (R223). -/
def State.framesOf (s : State) (m : BitVec 10) : List Nat :=
  match s.boot.plate with
  | none => []
  | some p => ((p.interleave.filter fun r => r.module = m).flatMap (·.spreads)).flatMap fun sp =>
      (List.range sp.frameCount.toNat).map fun i => sp.frameBase.toNat + i

/-- Frames of the domain that hold no block and are no destination, without those a map-out vacates (R258, R262): free frames. -/
def State.freeFrames (s : State) : List (BitVec 10 × Nat) :=
  let used (m : BitVec 10) (f : Nat) : Bool :=
    s.mem.auth.any (fun e => dirValid e.2 && dirModule e.2 = m && dirFrame e.2 = f) ||
      s.mem.migs.any (fun g => (g.oldMod = m && g.oldFrame.toNat = f) || (g.newMod = m && g.newFrame.toNat = f)) ||
      (SMap.get s.ae.mods m.toNat .zero).joined.any fun j => j.vacated.any fun v => v.toNat = f
  s.modules.flatMap fun m => ((s.framesOf m).filter fun f => !used m f).map fun f => (m, f)

/-- May a block be frozen at S(a) (R263)? -/
def State.mayFreeze (s : State) (b a : Nat) (old new : BitVec 10) : Bool :=
  (s.migOf b).isNone &&
    (match SMap.find s.mem.lastMoved b with
     | some n => n.toNat + 2 ≤ a
     | none => true) &&
    (s.mem.migs.countP fun m => m.oldMod = old && !m.switched) < 64 && (s.mem.migs.countP fun m => m.newMod = new && !m.complete) < 64

/-- The freeze records of a close: blocks that wait to migrate, each to a free frame, within the limits of R263. Which free frame is the
manager's choice (notes/assumptions/2): a free value. -/
def State.freezeRecs (s : State) (a : Nat) : List Nat → List DirUpdate → State × List DirUpdate
  | [], acc => (s, acc)
  | b :: r, acc =>
    let e := SMap.get s.mem.auth b 0#32
    let free := s.freeFrames.filter fun f => !acc.any fun u => u.module = f.1 && u.frame.toNat = f.2
    match free[Config.freeNat s.free % free.length]? with
    | none => freezeRecs s a r acc
    | some f =>
      let olds := acc.countP fun u => dirModule (SMap.get s.mem.auth u.block.toNat 0#32) = dirModule e
      let news := acc.countP fun u => u.module = f.1
      if dirValid e && !dirPinned e && s.mayFreeze b a (dirModule e) f.1 &&
          (s.mem.migs.countP fun m => m.oldMod = dirModule e && !m.switched) + olds < 64 &&
          (s.mem.migs.countP fun m => m.newMod = f.1 && !m.complete) + news < 64 then
        freezeRecs { s with free := s.free + 1, mem := { s.mem with wanted := s.mem.wanted.filter (· ≠ b) } } a r
          (acc ++ [⟨BitVec.ofNat 48 a, 0#8, BitVec.ofNat 32 b, f.1, BitVec.ofNat 20 f.2⟩])
      else freezeRecs s a r acc

/-- The switch and cancel records of a close: every complete transfer, every migration to be cancelled (R260, R265). -/
def State.endRecs (s : State) (a : Nat) : List DirUpdate :=
  (s.mem.migs.filter fun m => !m.switched && (m.complete || m.doomed)).map fun m =>
    ⟨BitVec.ofNat 48 a, if m.doomed then 2#8 else 1#8, BitVec.ofNat 32 m.block, m.newMod, m.newFrame⟩

/-- The manager's broadcasts of a close, taking effect at S(a): switches, cancels, freezes, and link-state changes (R251, R295). A block that
finds no free frame waits, with a capacity alarm (R239). -/
def State.closeBroadcast (s : State) (a : Nat) : State :=
  let ends := s.endRecs a
  let f := s.freezeRecs a s.mem.wanted []
  let s := f.1
  let s := if s.mem.wanted.isEmpty || !s.freeFrames.isEmpty then s else s.alarm (devNotice 0x05 0x40 0x30 s.mem.wanted.length)
  let n := BitVec.ofNat 48 a
  let s := s.sendBatch n ((ends ++ f.2).map .dir)
  let news := s.mem.linkNews
  { s with mem := { s.mem with linkNews := [] } }.sendBatch n (news.map .link)

/-- Every migration that involves a module is to be cancelled (R265). -/
def State.doomModule (s : State) (m : BitVec 10) : State :=
  { s with mem := { s.mem with migs := s.mem.migs.map fun g => if (g.oldMod = m || g.newMod = m) && !g.switched then { g with doomed := true } else g } }

end Sys2Proof.Machine
end

