-- ==== Sys2Proof/Machine/MemEvents.lean ====
section
/-! DEFINITION. MemEvents.lean: throttle events, and what happens at the stacks: lane checks, refresh, temperature bands, retraining,
evacuation, patrol scrub and the rewriting of fenced blocks (spec/09 R221 to R245, spec/19 R496). -/
namespace Sys2Proof.Machine

/-! ## Throttle events (R496, R497) -/

/-- Is a throttle event of a reason and die open? -/
def State.throttled (s : State) (reason die : Nat) : Bool := s.pwr.open_.any fun t => t.reason.toNat = reason && t.die.toNat = die

/-- A throttle event begins. -/
def State.openThrottle (s : State) (reason die depth : Nat) : State :=
  { s with pwr := { s.pwr with open_ := s.pwr.open_ ++ [⟨BitVec.ofNat 8 reason, BitVec.ofNat 8 die, s.ftOr0, s.time.mono, BitVec.ofNat 8 depth⟩] } }

/-- An open throttle event reaches a stage or band; DEPTH keeps the highest. -/
def State.deepen (s : State) (reason die depth : Nat) : State :=
  { s with pwr := { s.pwr with open_ := s.pwr.open_.map fun t =>
      if t.reason.toNat = reason && t.die.toNat = die then { t with depth := BitVec.ofNat 8 (max t.depth.toNat depth) } else t } }

/-- Microseconds of a span, rounded up and saturating (Table 19.5). -/
def durationUs (ns : Nat) : Nat := min ((ns + 999) / 1000) 0xFFFFFFFF

/-- A duration in µs rounded up to whole milliseconds (R498). -/
def coarseUs (us : Nat) : Nat := min ((us + 999) / 1000 * 1000) 0xFFFFFFFF

/-- The throttle record of an event, as the event log takes it: FT = START, DETAIL = DURATION (R496, R528), in the tenant's form: START rounded
down and DURATION up to whole milliseconds (R498). -/
def throttleNotice (reason die us : Nat) : Notice :=
  { space := 2#8, code := BitVec.ofNat 8 reason, die := BitVec.ofNat 8 die, engine := BitVec.ofNat 8 (dieUnit die 0x32), detail := BitVec.ofNat 32 us }

/-- A throttle event ends: its record is emitted. -/
def State.closeThrottle (s : State) (reason die : Nat) : State :=
  match s.pwr.open_.find? fun t => t.reason.toNat = reason && t.die.toNat = die with
  | none => s
  | some t =>
    ({ s with pwr := { s.pwr with open_ := s.pwr.open_.erase t } }).eventAt
      (throttleNotice reason die (coarseUs (durationUs (s.time.mono.toNat - t.mono.toNat)))) (BitVec.ofNat 64 (t.start.toNat / 1000000 * 1000000))

/-! ## Subchannels -/

/-- A lane check (R221): of four pattern reads, a lane that fails in at least two is marked; two or more failing lanes, with the one marked before, lose
the subchannel (R241). -/
def State.laneCheck (s : State) (n : Nat) (reads : List (BitVec 12)) : State :=
  match (s.sub n).marked, lanesOf (laneVote reads) with
  | _, [] => s
  | none, [l] => s.markLane n l
  | some m, [l] => if m.toNat = l then s else s.loseSub n
  | _, _ => s.loseSub n

/-- REFRESH (R227, R228): at the subchannel's interval a refresh is issued, with those postponed before; while class 1 requests are ready it may be
postponed, by at most 8 commands. Whether such requests are ready is a free value (notes/assumptions/2). -/
def execRefresh (g : BitVec 10) (s : State) : Res :=
  let n := g.toNat
  let f := (s.reachMono ((s.sub n).refreshed.toNat + (s.sub n).refreshNs)).fresh
  inSub s n (f.2.modSub n fun x =>
    { x with refreshed := f.2.time.mono, postponed := if x.postponed < 8 && Config.freeNat f.1 % 2 = 1 then x.postponed + 1 else 0 })

/-! ## Temperature bands (R228, R229, Table 9.7) -/

/-- Lower bound of a band in °C. -/
def bandBound (b : Nat) : Int :=
  match b with
  | 0 => -1000
  | 1 => 85
  | 2 => 95
  | _ => 105

/-- A band left when the stack is 3 °C below its bound. -/
def coolBand : Nat → Int → Nat
  | 0, _ => 0
  | b + 1, t => if t ≤ bandBound (b + 1) - 3 then coolBand b t else b + 1

/-- The band after a reading. -/
def nextBand (b : Nat) (t : Int) : Nat :=
  let up := if 105 ≤ t then 3 else if 95 ≤ t then 2 else if 85 ≤ t then 1 else 0
  if b ≤ up then up else coolBand b t

/-- Refresh interval in ns of a band (Table 9.7). -/
def bandRefresh (b : Nat) : Nat := if b = 0 then 3904 else if b = 1 then 1952 else 976

/-- Burst cap of a band, in percent of the slots (Table 9.7). -/
def bandCap (b : Nat) : Nat :=
  match b with
  | 0 => 100
  | 1 => 75
  | 2 => 50
  | _ => 25

/-- Is some stack of this module above THERMAL_BAND (R337)? -/
def State.stackHot (s : State) : Bool :=
  match s.boot.plate with
  | some p => s.mem.stackSt.any fun x => p.admission.thermalBand.toNat < x.2.band
  | none => false

/-- One stack's reading: band, refresh and burst cap follow from it; throttle event, alarm of band 3, word to the AE. -/
def readStack (s : State) (st : Nat) (t : Int) : State :=
  let old := (SMap.get s.mem.stackSt st ⟨0, 0⟩).band
  let new := nextBand old t
  let die := stackDie st
  let s := { s with mem := { s.mem with stackSt := SMap.insert s.mem.stackSt st ⟨new, t⟩ } }
  if old = new then s
  else
    let s := (List.range 48).foldl (fun s c => (s.level (modCtr 0x0035 (48 * st + c)) new).modSub (48 * st + c) fun x =>
      { x with refreshNs := bandRefresh new, burstCap := bandCap new }) s
    let s := if old = 0 then s.openThrottle 0x03 die new else s.deepen 0x03 die new
    let s := if new = 0 then s.closeThrottle 0x03 die else s
    let s := if new = 3 then s.alarm (devNotice 0x0A die 0xFF new) else s
    let s := s.tell (.band st new s.stackHot)
    if s.stackHot then s.beginExcl 3 none else s

/-- STACK_TEMPERATURE_READ (R228): the readings of the stacks in order, in °C. -/
def execStackTemperatureRead (temps : List Int) (s : State) : Res :=
  .next ((temps.take s.label.variant.stacks).zipIdx.foldl (fun s t => readStack s t.2 t.1) s)

/-- RETRAIN_OVERDUE (R231): a subchannel not retrained within 60 s raises an alarm and goes on serving. -/
def execRetrainOverdue (g : BitVec 10) (s : State) : Res :=
  let n := g.toNat
  inSub s n
    (if 60000000000 ≤ s.time.mono.toNat - (s.sub n).retrained.toNat then s.alarm (devNotice 0x0B (stackDie (n / 48)) (n % 48) n) else s)

/-! ## Evacuation (R236 to R240, Table 9.8) -/

/-- The frames that the map-outs of one partition vacate (R238). -/
def State.vacatedIn (s : State) (p : Nat) : List Nat :=
  s.spreads.flatMap fun sp => ((List.range sp.frameCount.toNat).map fun i => sp.frameBase.toNat + i).filter fun f =>
    vacatedBy s.nSub sp (fun q => if q = p then s.begunOuts p else 0) f

/-- The home blocks in the frames that a partition's map-outs vacate, by this module's directory copy. -/
def State.vacatedBlocks (s : State) (p : Nat) : List Nat :=
  let fs := s.vacatedIn p
  (List.range s.dirBlocks).filter fun b =>
    let e := s.dirEntry b
    dirValid e && dirModule e = s.me && fs.contains (dirFrame e)

/-- Does a frozen block of this module lie on a partition? Evacuation waits for its switch (R265). -/
def State.frozenOn (s : State) (p : Nat) : Bool :=
  s.mem.migs.any fun m => m.oldMod = s.me && !m.switched && s.frameOn m.oldFrame.toNat p

/-- A map-out of a partition changed. -/
def State.modMapOut (s : State) (p sub : Nat) (f : MapOut → MapOut) : State :=
  s.modPart p fun x => { x with mapOuts := x.mapOuts.map fun m => if m.sub = sub then f m else m }

/-- EVACUATION_COPY (R239, step 2): the last vacated block has switched, and the copying to the patch locations begins. It meets the errors that
come with it. -/
def execEvacuationCopy (c : CopyTurn) (s : State) : Res :=
  let p := c.part.toNat
  inPart s p
    (match (s.part p).evacuation with
    | some m =>
      if (s.vacatedBlocks p).isEmpty && !s.frozenOn p && (s.part p).reset.isNone then
        (s.noteErrs c.errs).modMapOut p m.sub fun m => { m with ready := true }
      else s
    | none => s)

/-- A map-out is over: the subchannel leaves service, powered off, and the health record notes it (step 4). -/
def State.subOut (s : State) (p sub : Nat) : State :=
  let g := subGlobal s.label.variant p sub
  ((s.modMapOut p sub fun m => { m with copied := subGranules, ready := true, out := true }).health 3 g 0 0).level (modCtr 0x0034 g) 2

/-! ## Scrub and fences (R244, R245) -/

/-- The home block that lies in a frame of this module. -/
def State.blockOfFrame (s : State) (f : Nat) : Option Nat :=
  (List.range s.dirBlocks).find? fun b => s.homeOf b = some (s.me, f)

/-- The granule of a frame that lies on a subchannel copied to its patch location (R239, R240): one that cannot be read is zeros there, and its block is
fenced. -/
def State.copyGranule (s : State) (f g : Nat) : State :=
  match s.readGranule f g [] 0 with
  | (s, some d) => s.writeGranule f g d
  | (s, none) =>
    let s := s.writeGranule f g (List.replicate 128 0#8)
    match s.blockOfFrame f with
    | some b => s.fence b
    | none => s

/-- The next granule of an evacuation is copied, and its copy write acknowledged (R239, step 3): the watermark passes it, and the requests that waited
for it go to the patch location; after the last the subchannel leaves service. -/
def State.evacuateNext (s : State) (p : Nat) (m : MapOut) : State :=
  let s := match s.granuleOn p m.sub m.copied with
    | some (f, g) => s.copyGranule f g
    | none => s
  let s := if subGranules ≤ m.copied + 1 then s.subOut p m.sub else s.modMapOut p m.sub fun m => { m with copied := m.copied + 1 }
  s.retryWaits fun w => w.why = .copying

/-- Patrol scrub of a granule (R245): read with its checks, a corrected burst written back as it is; an uncorrectable one fences its block and is reported
to the MC. -/
def State.scrub (s : State) (f g : Nat) (noise : ReadNoise) : State :=
  match s.readGranule f g noise 0 with
  | (s, some _) => s
  | (s, none) =>
    match s.blockOfFrame f with
    | some b => let s := s.fence b; { s with mem := { s.mem with scrubBad := setInsert s.mem.scrubBad b } }
    | none => s

/-- The plate object whose blocks hold a block, and the block's place in it (Table 15.11). -/
def State.objectOf (s : State) (b : Nat) : Option (ObjectEntry × Nat) :=
  s.boot.plate.bind fun p =>
    (p.objects.find? fun o => o.blockBase.toNat ≤ b && b < o.blockBase.toNat + (o.length.toNat + blockBytes - 1) / blockBytes).map fun o =>
      (o, b - o.blockBase.toNat)

/-- The binding epoch in force (Table 20.1). -/
def State.epoch (s : State) : BitVec 16 := s.sec.epoch

/-- An object as bulk flash holds it under the present flash key (R408, R512). -/
def State.flashObj (s : State) (name : BitVec 64) : Option FlashObj :=
  if s.sec.root.isSome then s.boot.flash.find? fun o => o.name = name && o.epoch = s.epoch else none

/-- A byte string laid over a block: the part of it that falls into the block. -/
def overlay (b : Nat) (bytes : List Byte) (e : GAddr × List Byte) : List Byte :=
  if gaSpace e.1 = 0 && gaBlock e.1 = b then bytes.take (gaInBlock e.1) ++ e.2 ++ bytes.drop (gaInBlock e.1 + e.2.length) else bytes

/-- A committed proof's bytes laid over a block. -/
def overlayProof (b : Nat) (bytes : List Byte) (p : StoredProof) : List Byte := p.bytes.foldl (overlay b) bytes

/-- What a fenced block is rewritten with: an object's bytes for weights and images, the stored proofs laid over zeros for session state, zeros
for any other block (R244). -/
def State.sourceOf (s : State) (b : Nat) : List Byte :=
  let zeros := List.replicate blockBytes 0#8
  match s.useOf b with
  | 1 | 2 =>
    match s.objectOf b with
    | some (o, i) => padTo blockBytes 0#8 ((((s.flashObj o.name).map (·.data)).getD []).drop (i * blockBytes) |>.take blockBytes)
    | none => zeros
  | 3 | 4 => (s.boot.proofs.filter fun p => p.epoch = s.epoch).foldl (overlayProof b) zeros
  | _ => zeros

/-- A block of this module written whole. -/
def State.writeBlock (s : State) (b : Nat) (bytes : List Byte) : State :=
  match s.homeOf b with
  | some h =>
    if h.1 = s.me then
      let mem := s.mem.mem.write (h.2 * blockBytes) (padTo blockBytes 0#8 bytes)
      { s with mem := { s.mem with mem := mem, errs := s.mem.errs.filter fun e => e.frame.toNat ≠ h.2 } }
    else s
  | none => s

/-- A fence lifted, and the requests held for the block tried again. -/
def State.unfence (s : State) (b : Nat) : State :=
  let not (l : List Nat) : List Nat := l.filter (· ≠ b)
  let t : State := { s with mem := { s.mem with fenced := not s.mem.fenced, held := not s.mem.held, scrubBad := not s.mem.scrubBad } }
  t.retryWaits fun w => w.why = WaitWhy.held && gaBlock w.pkt.addr = b

/-- FENCE_LIFT (R244): the MC has rewritten the whole block from its source. -/
def execFenceLift (block : BitVec 32) (s : State) : Res :=
  let b := block.toNat
  .next (if s.mem.fenced.contains b then (s.writeBlock b (s.sourceOf b)).unfence b else s)

end Sys2Proof.Machine
end

