-- ==== Sys2Proof/Machine/Join.lean ====
section
/-! DEFINITION. Join.lean: the held states of a failed start, a start from nothing, and the beginning of the join (spec/15 R404 to R406, R412, R413,
R416, spec/02 R40). -/
namespace Sys2Proof.Machine

/-- Every port of the module held down, host port included. -/
def State.closePorts (s : State) : State :=
  { s with fab := { s.fab with ports := s.fab.ports.map (fun _ => { PortState.reset with heldDown := true }), waiting := [], vc0 := [] },
           trans := { s.trans with linkUp := false, accepting := false } }

/-- The module fails start with a code of Table 15.20 and is held until its next start: dark below 0x89, visible from there on (R412,
R413), with an alarm of the code (R528). -/
def State.hold (s : State) (code : Nat) : State :=
  let dark := code < 0x89
  let s := s.alarm ⟨3#8, BitVec.ofNat 8 code, 0x40#8, 0x30#8, 0#32⟩
  let s := { s with boot := { s.boot with standing := if dark then .heldDark else .heldVisible, code := BitVec.ofNat 8 code, valid := [], missing := [] } }
  if dark then { s.closePorts with parts := Vector.replicate 16 { Part.atReset with reset := some ⟨s.time.mono, none⟩ } } else s

/-- What survives a restart (R416): what is fixed at manufacture, the protection state, flash with boot and health records, the auxiliary domain and
power readings; the model's own record of what has left, free-value counter and queue go on. -/
def State.restart (s : State) : State :=
  { State.reset with
    label := s.label, sec := s.sec, pwr := s.pwr, out := s.out, free := s.free, pending := s.pending,
    time := { TimeState.reset with mono := s.time.mono },
    boot := { BootState.reset with rec0 := s.boot.rec0, rec1 := s.boot.rec1, health := s.boot.health, slot0 := s.boot.slot0,
                                   slot1 := s.boot.slot1, flash := s.boot.flash, proofs := s.boot.proofs } }

/-- The frames of this module's spreads less those vacated (R225). -/
def State.capacityFrames (s : State) : Nat := (s.spreads.map fun sp => sp.frameCount.toNat).sum - s.vacatedFrames.length

/-- This module's JOIN record (R406). -/
def State.joinRec (s : State) : JoinRec :=
  { side := s.side, module := s.me, measure := (s.boot.plate.map Plate.measure).getD 0#512, capacity := s.capacityFrames,
    vacated := s.vacatedFrames.map (BitVec.ofNat 20), steppings := s.label.sites }

/-- Is this module ready to join: the manager LOCKED, a worker time-ready (R40)? -/
def State.timeReady (s : State) : Bool := if s.isManager then s.time.master = .locked else 8 ≤ s.time.readyRuns

/-- Step 8 of start begins once step 7 is done and the module is ready: a worker sends JOIN and the subchannels that its partitions with map-outs keep
in service (R236), the manager joins itself (R406). -/
def State.tryJoin (s : State) : State :=
  if s.boot.standing = .starting && s.boot.step = 7 && s.timeReady then
    let s := { s with boot := { s.boot with step := 8, code := 0x06#8 } }
    if s.isManager then s.modInfo s.me fun m => { m with joined := some s.joinRec, failed := false, beatAt := s.time.mono }
    else
      ((List.range s.label.variant.parts).filter fun p => s.begunOuts p ≠ 0).foldl
        (fun s p => s.tell (.capacity p (s.nSub - s.begunOuts p) s.capacityFrames)) (s.send s.ae.manager (.join s.joinRec))
  else s

end Sys2Proof.Machine
end

