-- ==== Sys2Proof/Machine/Time.lean ====
section
/-! DEFINITION. Time.lean: PTP and the manager's time states, time messages and the worker's alignment states (spec/02 R31 to R43). -/
namespace Sys2Proof.Machine

/-! ## PTP (R31 to R35, Table 2.1) -/

/-- The data set of an Announce in the order in which the best master clock algorithm compares it (IEEE 1588-2019; PRESUMED, notes/assumptions/14). -/
def annKey (a : PtpAnnounce) : List Nat :=
  [a.priority1.toNat, a.clkClass.toNat, a.accuracy.toNat, a.variance.toNat, a.priority2.toNat, a.gm.toNat, a.steps.toNat]

/-- Lexicographic order of two data sets. -/
def keyLt : List Nat → List Nat → Bool
  | a :: r, b :: t => a < b || (a = b && keyLt r t)
  | _, _ => false

/-- The best of the grandmasters seen. -/
def bestGm : List GmSeen → Option GmSeen
  | [] => none
  | g :: r =>
    match bestGm r with
    | some b => if keyLt (annKey b.ann) (annKey g.ann) then some b else some g
    | none => some g

/-- An Announce interval in ns (R31: 2^-3 s to 4 s). -/
def announceNs (log : Int) : Nat := if 0 ≤ log then 1000000000 * 2 ^ log.toNat else 1000000000 / 2 ^ (-log).toNat

/-- The Announce interval of the grandmaster selected. -/
def State.annInterval (s : State) : Nat :=
  match s.time.seen.find? fun g => s.time.gm = some g.ann.gm with
  | some g => announceNs g.ann.logInterval
  | none => 1000000000

/-- Is a PTP message of the domain and transport of the plate (R31)? -/
def State.ptpOurs (s : State) (domain : BitVec 8) (transport : BitVec 2) : Bool :=
  domain = s.domain.ptpDomain && transport = s.domain.ptpTransport

/-- The time state's counter (0x0005): the row of Table 2.1 at the manager, of Table 2.3 at a worker. -/
def State.noteTime (s : State) : State :=
  if s.isManager then
    s.level (modCtr 0x0005 0) (match s.time.master with
      | .acquiring => 0
      | .locked => 1
      | .holdover => 2
      | .suspect => 3)
  else match s.time.worker with
    | .starting => s
    | .aligned => s.level (modCtr 0x0005 0) 0
    | .offPlan => s.level (modCtr 0x0005 0) 1
    | .lost => s.level (modCtr 0x0005 0) 2

/-- Time fields changed. -/
def State.modTime (s : State) (f : TimeState → TimeState) : State := { s with time := f s.time }

/-- FT steered towards a source from which it is off by some ns, at no more than a bound in ppb; the rate within the bound, and the part of it that
corrects the oscillator's frequency, are free values (R34, R40; notes/assumptions/15). -/
def State.steer (s : State) (off : Int) (bound : Nat) : State :=
  let f := s.fresh
  let g := f.2.fresh
  let r : Int := (Config.freeNat f.1 % (bound + 1) : Nat)
  let q : Int := (Config.freeNat g.1 % (2 * bound + 1) : Nat) - (bound : Int)
  g.2.modTime fun t => { t with freqPpb := q, slewPpb := if off = 0 then q else if 0 < off then -r else r }

/-- FT runs on its oscillator with the last frequency correction held (Table 2.1, HOLDOVER and SUSPECT). A deputy goes on following the manager. -/
def State.coast (s : State) : State := if s.isManager then s.modTime fun t => { t with slewPpb := t.freqPpb, slewing := false } else s

/-- Entry to SUSPECT: the correction is ignored, and an alarm is raised (Table 2.1). -/
def State.suspect (s : State) : State :=
  ((s.modTime fun t => { t with master := .suspect, masterRuns := 0, suspectAt := some t.mono, slewing := false }).coast.alarm
    (devNotice 0x02 0x40 0x30 0)).noteTime

/-- Entry to LOCKED; the manager sets FT once, when it first enters it (R34), and with it its stroke index. -/
def State.lock (s : State) (slewing : Bool) (hall : Int) : State :=
  let s := s.modTime fun t =>
    { t with master := .locked, masterRuns := 0, suspectAt := none, slewing := slewing,
             ft := if s.isManager && !t.ftSet then BitVec.ofInt 64 (t.mono.toNat + hall) else t.ft,
             ftSet := t.ftSet || s.isManager }
  let s := if s.time.stroke = 0#48 then s.modTime fun t => { t with stroke := s.indexNow } else s
  s.noteTime.tryJoin

/-- A Sync at the manager or deputy: the time state moves on the offset of FT from PTP, or while FT is not set on how steady the hall's
offset from the own clock is (Table 2.1). The table tests a filtered offset in LOCKED and the spec gives no filter: none is applied here, and each Sync's
offset is tested as it is (notes/assumptions/15). Only the manager steers FT (R33). -/
def State.servo (s : State) (off hall : Int) : State :=
  let small : Bool := off.natAbs ≤ 1000
  let near : Bool := off.natAbs ≤ 10000
  let runs (ok : Bool) : Nat := if ok then s.time.masterRuns + 1 else 0
  match s.time.master with
  | .acquiring => if 16 ≤ runs small then s.lock false hall else s.modTime fun t => { t with masterRuns := runs small }
  | .locked =>
    if s.time.slewing then
      if small then let s := s.modTime fun t => { t with slewing := false }; if s.isManager then s.steer off 10000 else s
      else s
    else if !near then s.suspect
    else if s.isManager then s.steer off 10000 else s
  | .holdover =>
    if !near then s.suspect
    else if 16 ≤ runs true then s.lock false hall else s.modTime fun t => { t with masterRuns := runs true }
  | .suspect =>
    if 16 ≤ runs near then s.lock false hall
    else s.modTime fun t => { t with masterRuns := runs near, suspectAt := if near then none else some (t.suspectAt.getD t.mono) }

/-- PTP_SYNC (R31, R33): a Sync of the selected grandmaster gives the PTP-derived time; the hall offset is that time less FT. A delay request follows. -/
def execPtpSync (m : PtpSync) (s : State) : Res :=
  .next (if s.time.gm ≠ some m.gm || !s.ptpOurs m.domain m.transport then s
    else
      let hall : Int := m.origin.toNat + s.time.pathDelay - m.arrival.toNat
      let ftThen : Int := s.time.ft.toNat - (s.time.mono.toNat - m.arrival.toNat : Int)
      let ptp : Int := m.origin.toNat + s.time.pathDelay
      let off : Int := if s.time.ftSet then ftThen - ptp else hall - s.time.lastDiff
      let s := s.modTime fun t =>
        { t with lastSync := t.mono, lastDiff := hall, hallOffset := if t.ftSet then -off else t.hallOffset, delayReq := some t.mono }
      let s := s.emit (.ptpDelayReq m.gm s.time.mono)
      let s := if s.time.ftSet then s.level (modCtr 0x0004 0) (BitVec.ofInt 64 (-off)).toNat else s
      if s.isManager || s.isDeputy then s.servo off hall else s)

/-- Has PTP been lost: neither Sync nor Announce of the selected grandmaster for 3 Announce intervals (R35)? -/
def State.ptpSilent (s : State) : Bool :=
  let w := 3 * s.annInterval
  s.time.gm.isSome && s.time.lastSync.toNat + w ≤ s.time.mono.toNat && s.time.lastAnn.toNat + w ≤ s.time.mono.toNat

/-- The grandmasters whose Announces have come within three of their intervals; the selection runs over them (R32; notes/assumptions/14). -/
def TimeState.live (t : TimeState) : List GmSeen := t.seen.filter fun g => t.mono.toNat < g.at_.toNat + 3 * announceNs g.ann.logInterval

/-- The selection made anew among grandmasters seen; a new one begins its runs afresh, and its Announce is the one that counts. -/
def TimeState.reselect (t : TimeState) (seen : List GmSeen) : TimeState :=
  let best := bestGm seen
  let gm := best.map (·.ann.gm)
  { t with seen := seen, gm := gm, lastAnn := (best.map (·.at_)).getD t.lastAnn, masterRuns := if gm = t.gm then t.masterRuns else 0,
           delayReq := if gm = t.gm then t.delayReq else none }

/-- PTP of the selected grandmaster is lost (Table 2.1): LOCKED goes to HOLDOVER, and the 60 s of SUSPECT are broken off. -/
def State.losePtp (s : State) : State :=
  let s := s.modTime fun t => { t.reselect (t.live.filter fun g => t.gm ≠ some g.ann.gm) with masterRuns := 0, suspectAt := none }
  if s.time.master = .locked && (s.isManager || s.isDeputy) then
    ((s.modTime fun t => { t with master := .holdover, slewing := false }).coast).noteTime
  else s

/-- PTP_ANNOUNCE (R32): an Announce of an accepted grandmaster enters the selection; any other is ignored. -/
def execPtpAnnounce (m : PtpAnnounce) (s : State) : Res :=
  .next (if s.domain.gms.contains m.gm && s.ptpOurs m.domain m.transport then
      let s := if s.ptpSilent && s.time.gm ≠ some m.gm then s.losePtp else s
      s.modTime fun t => t.reselect ((t.live.filter fun g => g.ann.gm ≠ m.gm) ++ [⟨m, t.mono⟩])
    else s)

/-- PTP_DELAY_RESPONSE (R31): the response to the last delay request gives the end-to-end path delay, half of the request's time to the master and of the
last Sync's time from it. -/
def execPtpDelayResponse (m : PtpDelay) (s : State) : Res :=
  .next (if s.time.gm ≠ some m.gm || !s.ptpOurs m.domain m.transport || s.time.delayReq ≠ some m.sent then s
    else
      let there : Int := m.received.toNat - m.sent.toNat
      let back : Int := s.time.pathDelay - s.time.lastDiff
      s.modTime fun t => { t with pathDelay := (there + back) / 2, delayReq := none })

/-- PTP_LOSS_TIMEOUT (R35): no Sync or Announce for 3 Announce intervals. -/
def execPtpLossTimeout (s : State) : Res := .next (if s.ptpSilent then s.losePtp else s)

/-- SUSPECT_TIMEOUT (R35): an offset above 10 µs for 60 s without a break; LOCKED with a slew at 10 ppm until the offset is within 1 µs. -/
def execSuspectTimeout (s : State) : Res :=
  .next (match s.time.master, s.time.suspectAt with
    | .suspect, some t0 =>
      if t0.toNat + 60000000000 ≤ s.time.mono.toNat then
        let s := s.lock true s.time.lastDiff
        if s.isManager then s.modTime fun t => { t with slewPpb := if 0 < t.hallOffset then 10000 else -10000 } else s
      else s
    | _, _ => s)

/-! ## Time messages (R37 to R41, Table 2.3) -/

/-- The domain fabric ports up that carry VC3 (R290). -/
def State.vc3Ports (s : State) : List Nat :=
  ((List.range 15).filter fun j => (neighbour s.size s.me.toNat j).isSome && s.logicalUp j).map fun j => if s.paired then 2 * j else j

/-- The upstream port: the first route to the manager (R37, R318). -/
def State.upstream (s : State) : Option Nat :=
  if s.isManager then none
  else (s.route s.me.toNat s.ae.manager.toNat).map fun j => if s.paired then 2 * j else j

/-- TIME_MESSAGE_SEND (R37): the manager sends a time message from each of its domain fabric ports. -/
def execTimeMessageSend (s : State) : Res :=
  .next (if s.isManager && s.time.ftSet then
    let s := s.reachMono ((s.time.timeSent.map fun t => t.toNat + 125000).getD 0)
    let s := s.modTime fun t => { t with timeSent := some t.mono }
    s.vc3Ports.foldl (fun s p => s.emit (.timeMsg p s.time.ft 0#56)) s
  else s)

/-- Entry to OFF-PLAN: the manager is notified with the stroke index (R41, R42). -/
def State.goOffPlan (s : State) : State :=
  let n := s.time.stroke
  (((s.modTime fun t => { t with worker := .offPlan, awayRuns := 0, nearRuns := 0, offSince := some n, offAcked := false }).event
    (devNotice 0x13 0x40 0x30 1)).send s.ae.manager (.offPlan n)).noteTime

/-- Entry to LOST (ENTER_LOST): nothing more is sent on the domain fabric (R41). -/
def State.goLost (s : State) : State := (s.modTime fun t => { t with worker := .lost }).noteTime

/-- The FT offset that an ALIGNED worker may show: 10 ns, 20 ns for 8 ms after a succession (R41, R43). -/
def State.alignBound (s : State) : Nat :=
  match s.time.succAt with
  | some t => if s.time.mono.toNat ≤ t.toNat + 8000000 then 20 else 10
  | none => 10

/-- The alignment state after a time message of some FT offset (Table 2.3). -/
def State.align (s : State) (off : Int) : State :=
  if 10000 < off.natAbs then s.goLost
  else match s.time.worker with
    | .starting => s.modTime fun t => { t with readyRuns := if off.natAbs ≤ 10 then t.readyRuns + 1 else 0 }
    | .aligned =>
      if off.natAbs ≤ s.alignBound then s.modTime fun t => { t with awayRuns := 0 }
      else if 8 ≤ s.time.awayRuns + 1 then s.goOffPlan
      else s.modTime fun t => { t with awayRuns := t.awayRuns + 1 }
    | .offPlan =>
      let runs := if off.natAbs ≤ 5 then s.time.nearRuns + 1 else 0
      let s := s.modTime fun t => { t with nearRuns := runs }
      if runs = 64 then s.send s.ae.manager (.offPlan (s.time.offSince.getD s.time.stroke)) else s
    | .lost => s

/-- Have the domain fabric ports trained: none is untrained or in training (R40)? -/
def State.portsTrained (s : State) : Bool :=
  (List.range s.label.variant.ports).all fun k =>
    let x := s.port k
    s.isTwin k || (s.facing k).isNone || x.phase = .up || x.heldDown || (x.phase = .down && x.phaseAt ≠ 0#64)

/-- TIME (R37 to R41): a message from the upstream port sets FT once the ports have trained, or corrects it, moves the alignment state and goes on by every other domain port;
any other is discarded. -/
def execTime (m : TimeMsg) (s : State) : Res :=
  let p := m.port.toNat
  inPort s p
    (if s.upstream ≠ some p || !(s.time.ftSet || s.portsTrained) then s
    else
      let corr := m.correction.toNat + (s.port p).delayNs * 65536
      let held := s.time.mono.toNat - m.arrival.toNat
      let source : Int := m.origin.toNat + corr / 65536
      let off : Int := if s.time.ftSet then s.time.ft.toNat - held - source else 0
      let s := s.modTime fun t =>
        { t with lastTime := t.mono, ftOffset := off, ftSet := true,
                 ft := if t.ftSet then t.ft else BitVec.ofNat 64 (m.origin.toNat + corr / 65536 + held) }
      let s := if s.time.stroke = 0#48 then s.modTime fun t => { t with stroke := s.indexNow } else s
      let s := ((s.steer off 20000).align off).tryJoin
      (s.vc3Ports.filter (· ≠ p)).foldl (fun s q =>
        if s.time.worker = .lost then s else s.emit (.timeMsg q m.origin (BitVec.ofNat 56 (corr + held * 65536)))) s)

/-- DELAY_EXCHANGE_SEND (R38): each link direction starts a two-way measurement. -/
def execDelayExchangeSend (s : State) : Res :=
  .next (if s.time.worker = .lost then s
    else ((List.range s.label.variant.ports).filter fun p => (s.port p).phase = .up).foldl (fun s p => s.emit (.delayReq p s.time.mono)) s)

/-- DELAY (R38): the far end's request is answered with its arrival and the answer's departure here; an answer to this port's own gives half of the round
trip less the far end's residence. -/
def execDelay (port : BitVec 5) (m : DelayMsg) (s : State) : Res :=
  let p := port.toNat
  inPort s p (match m with
    | .ask t1 t2 => if s.time.worker = .lost then s else s.emit (.delayAns p ⟨t1, t2, s.time.mono, 0#64⟩)
    | .answer t => s.modPort p fun x => { x with delayNs := ((t.t4.toNat - t.t1.toNat) - (t.t3.toNat - t.t2.toNat)) / 2 })

/-- TIME_MESSAGE_LOSS (R41): 8 time messages missing, 1 ms, move a worker to OFF-PLAN, but not within 8 ms of a succession (R43); 1 s without any to
LOST. -/
def execTimeMessageLoss (s : State) : Res :=
  let gap := s.time.mono.toNat - s.time.lastTime.toNat
  .next (if s.isManager || !s.time.ftSet then s
    else if 1000000000 ≤ gap then s.goLost
    else if 1000000 ≤ gap then
      match s.time.worker with
      | .aligned => if s.alignBound = 20 then s else s.goOffPlan
      | .starting => s.modTime fun t => { t with readyRuns := 0 }
      | .offPlan => s.modTime fun t => { t with nearRuns := 0 }
      | .lost => s
    else s)

/-- The link-state changes that set or clear SLOTS of every port of a module (R42): they wait for the manager's next broadcast. -/
def State.slotNews (s : State) (m : BitVec 10) (slots : Bool) : State :=
  let news := (List.range 15).filterMap fun j =>
    let e := s.linkEntry m.toNat j
    if e.state = 1#2 then some (⟨m, BitVec.ofNat 5 j, e.state, e.width, slots && e.width = 0#2⟩ : LinkState) else none
  { s with mem := { s.mem with linkNews := (s.mem.linkNews.filter fun d => !news.any fun c => c.module = d.module && c.port = d.port) ++ news } }

/-- OFF_PLAN_NOTICE (R42) at the manager: the module's slots are released to unslotted traffic from the next boundary, by the link-state broadcast before
it. A notice of an entry already known says that the module has held its offset; it is acknowledged, and its slots come back with its return at the
boundary (R41; notes/assumptions/16). -/
def execOffPlanNotice (module : BitVec 10) (stroke : Stroke) (s : State) : Res :=
  .next (if !s.isManager then s
    else if (SMap.get s.ae.mods module.toNat .zero).offPlan = some stroke then
      let s := (s.send module .offPlanAck).slotNews module true
      { s with su := { s.su with pendBack := setInsert s.su.pendBack module.toNat } }
    else
      let s := (s.modInfo module fun x => { x with offPlan := some stroke }).slotNews module false
      { s with su := { s.su with pendFree := setInsert s.su.pendFree module.toNat, pendBack := s.su.pendBack.filter (· ≠ module.toNat) } })

/-- OFF_PLAN_ACK (R41): the worker returns to ALIGNED at the next stroke boundary. -/
def execOffPlanAck (s : State) : Res :=
  .next (if s.time.worker = .offPlan && 64 ≤ s.time.nearRuns then s.modTime fun t => { t with offAcked := true } else s)

end Sys2Proof.Machine
end

