-- ==== Sys2Proof/Machine/Costs.lean ====
section
/-! DEFINITION. Costs.lean: where a session's structures lie (spec/08 R188 to R192, spec/13 R334), and what its rows cost: schedules, charges,
capacities and the checks of a stroke (spec/13 R325 to R329). -/
namespace Sys2Proof.Machine

/-! ## Pages and the session area -/

/-- ⌈a / b⌉. -/
def ceilDiv (a b : Nat) : Nat := (a + b - 1) / b

/-- The next multiple of 128. -/
def align128 (a : Nat) : Nat := (a + 127) / 128 * 128

/-- The KV descriptor from which the sessions of an instance take their sizes (R186). -/
def State.kvOf (s : State) (inst : BitVec 16) : Option KvDesc :=
  s.boot.plate.bind fun p => (p.kv.find? fun r => r.inst = inst).map (·.desc)

/-- log2 of the page size of a session of Lmax tokens (R188); none when no size qualifies. -/
def State.pageLog2For (s : State) (d : KvDesc) (lmax : Nat) : Option Nat :=
  let ok (k : Nat) : Bool := ceilDiv lmax (2 ^ k) ≤ d.pagesMax.toNat
  if s.size ≤ 16 then (if ok 8 then some 8 else none)
  else (List.range (d.pgMax.toNat + 1 - d.pgMin.toNat)).map (d.pgMin.toNat + ·) |>.find? ok

/-- What a session's structures are cut from. -/
structure SessGeom where
  kv     : KvGeom
  cs     : Nat
  prompt : Nat
  replay : Nat

/-- The geometry of a session of given terms: PAGES_ALLOC = ⌈Lmax / Pg⌉ (R190), Cs (R192). -/
def sessGeom (d : KvDesc) (c : ClassEntry) (t : OpenTerms) (pageLog2 chunk : Nat) : SessGeom :=
  let pg := 2 ^ pageLog2
  { kv := { layers := d.layers.toNat, heads := d.kvHeads.toNat, pg := pg, rate := c.rate.toNat, reps := 2 ^ d.repsLog2.toNat,
            alloc := ceilDiv (t.prompt.toNat + t.output.toNat) pg },
    cs := stagingCap pg chunk, prompt := 4 * t.prompt.toNat,
    replay := 4 * (ceilDiv c.recovery.toNat t.cadence.toNat + 1) * (1 + c.draftsMax.toNat) }

/-- The addresses of a session area (R334): page list, staging, sketch, prompt buffer, replay buffer, end. -/
structure AreaMap where
  pageList : Nat
  staging  : Nat
  sketch   : Nat
  prompt   : Nat
  replay   : Nat
  stop     : Nat

/-- A session area laid out from a byte address. -/
def SessGeom.area (g : SessGeom) (base : Nat) : AreaMap :=
  let staging := align128 (base + 4 * g.kv.alloc)
  let sketch := align128 (staging + g.kv.stagingBytes g.cs)
  let prompt := align128 (sketch + g.kv.layers * g.kv.heads * g.kv.sketchBytes)
  let replay := align128 (prompt + g.prompt)
  ⟨base, staging, sketch, prompt, replay, replay + g.replay⟩

/-- Blocks of a session area. -/
def SessGeom.areaBlocks (g : SessGeom) : Nat := ceilDiv (g.area 0).stop blockBytes

/-- The geometry of a session known here. -/
def State.geomOf (s : State) (x : Session) : Option SessGeom :=
  match s.kvOf x.inst, s.cclass x.terms.cclass with
  | some d, some c => some (sessGeom d c x.terms x.pageLog2.toNat x.chunk.toNat)
  | _, _ => none

/-- Blocks of one page frame of a session with these terms (R331). -/
def State.frameBlocks (s : State) (inst : BitVec 16) (t : OpenTerms) (pl cr : Nat) : Nat :=
  match s.kvOf inst, s.cclass t.cclass with
  | some d, some c => let g := sessGeom d c t pl cr; ceilDiv (g.kv.layers * g.kv.heads * 2 * g.kv.slabBytes) blockBytes
  | _, _ => 0

/-- The area of a session known here. -/
def State.areaOf (s : State) (x : Session) : AreaMap :=
  match s.geomOf x with
  | some g => g.area (x.area.toNat * blockBytes)
  | none => ⟨0, 0, 0, 0, 0, 0⟩

/-! ## Charges (R324, R325) -/

/-- A sum of charges: time in ns, reads of 4 KiB, unslotted and slotted granules, rows. -/
structure Charge where
  time : Nat
  read : Nat
  xfer : Nat
  slot : Nat
  rows : Nat

/-- No charge. -/
def Charge.zero : Charge := ⟨0, 0, 0, 0, 0⟩

/-- Charges added. -/
def Charge.add (a b : Charge) : Charge := ⟨a.time + b.time, a.read + b.read, a.xfer + b.xfer, a.slot + b.slot, a.rows + b.rows⟩

/-- Charges of a list added. -/
def Charge.sum (l : List Charge) : Charge := l.foldl Charge.add .zero

/-- n times a cost entry; no cost entry names rows. -/
def CostEntry.times (e : CostEntry) (n : Nat) : Charge := ⟨n * e.time.toNat, n * e.read.toNat, n * e.xfer.toNat, n * e.slot.toNat, 0⟩

/-- One row on the rows resource. -/
def oneRow : Charge := ⟨0, 0, 0, 0, 1⟩

/-- ⌈log2 n⌉ for n up to 2^40. -/
def clog2 (n : Nat) : Nat := ((List.range 40).find? fun k => n ≤ 2 ^ k).getD 40

/-- The bucket of an end position (R325). -/
def bucket (e : Nat) : Nat := if e ≤ 256 then 0 else min 23 (clog2 e - 8)

/-- The cost entry of a kind and bucket (R324). -/
def AdmRec.cost (r : AdmRec) (kind b : Nat) : CostEntry := (r.costs[24 * kind + b]?).getD ⟨0#32, 0#32, 0#32, 0#32⟩

/-- What a stroke's checks add up for a session or a module: non-deferrable, deferrable and replay charges. -/
structure Charges where
  firm   : Charge
  soft   : Charge
  replay : Charge

/-- No charges. -/
def Charges.zero : Charges := ⟨.zero, .zero, .zero⟩
/-- Charges added. -/
def Charges.add (a b : Charges) : Charges := ⟨a.firm.add b.firm, a.soft.add b.soft, a.replay.add b.replay⟩

/-- A prefill row of a session: chunk tokens ending at a position (stages 1 and 2). -/
def prefillCharges (r : AdmRec) (c : ClassEntry) (ring : Bool) (pg cr chunk start : Nat) : Charges :=
  let stop := start + chunk
  let b := bucket stop
  { firm := Charge.sum [(r.cost (if ring then 4 else 2) b).times chunk, (r.cost 5 b).times (stop / pg - start / pg), oneRow],
    soft := (r.cost 6 b).times 1,
    replay := ((r.cost 2 b).times (c.recovery.toNat * cr)).add oneRow }

/-- A decode row yielding output i of a session (stages 0 and 3). A class with drafts is charged a seal in every due decode stroke. -/
def decodeCharges (r : AdmRec) (c : ClassEntry) (ring : Bool) (pg lp cad i : Nat) : Charges :=
  let dm := c.draftsMax.toNat
  let b := bucket (lp + i + dm)
  let seals := if 0 < dm then 1 else if (lp + i) % pg = 0 then 1 else 0
  { firm := Charge.sum [(r.cost (if ring then 3 else 0) b).times 1, (r.cost 5 b).times seals, oneRow],
    soft := ((r.cost 1 b).times dm).add ((r.cost 6 b).times 1),
    replay := ((r.cost 2 b).times (ceilDiv c.recovery.toNat cad * (1 + dm))).add oneRow }

/-- Chunks of a prompt (R86). -/
def chunks (lp cr : Nat) : Nat := ceilDiv lp cr

/-- A session's charges in stroke m under a schedule: chunk j in stroke begin + j, output i in stroke f + i × c (R329). A restore's stroke
carries the replay charge of its row as work to be done (R341). -/
def scheduleCharges (r : AdmRec) (c : ClassEntry) (e : LedgerEntry) (m : Nat) : Charges :=
  if e.stop.any (·.toNat ≤ m) || e.released then .zero
  else
    let cr := e.chunk.toNat
    let lp := e.terms.prompt.toNat
    let pg := 2 ^ e.pageLog2.toNat
    let n := chunks lp cr
    let cad := e.terms.cadence.toNat
    let rows : Charges :=
      if e.begin_.toNat ≤ m && m < e.begin_.toNat + n then
        let j := m - e.begin_.toNat
        prefillCharges r c e.ring pg cr (min cr (lp - j * cr)) (j * cr)
      else if e.first.toNat < m && (m - e.first.toNat) % cad = 0 && (m - e.first.toNat) / cad < e.terms.output.toNat then
        decodeCharges r c e.ring pg lp cad ((m - e.first.toNat) / cad)
      else .zero
    -- in a stroke without a row of its own the replay accompanies the decode row due last before it
    let last : Charges :=
      if rows.firm.rows = 0 && e.first.toNat < m then
        decodeCharges r c e.ring pg lp cad (min ((m - e.first.toNat) / cad) (e.terms.output.toNat - 1))
      else rows
    if e.replays.any (·.toNat = m) then { rows with firm := rows.firm.add last.replay } else rows

/-- Does a session have a row in stroke m? -/
def hasRow (ch : Charges) : Bool := ch.firm.rows ≠ 0

/-! ## Capacities (R327) -/

/-- VARIANT of a module of this side (Table 15.9). -/
def State.variantOf (s : State) (m : BitVec 10) : Variant :=
  match s.boot.plate.bind fun p => (p.modules.find? fun e => e.module = m && e.side = s.side).map (·.variant) with
  | some v => if v = 0#2 then .a16 else if v = 1#2 then .m12 else .n12
  | none => s.label.variant

/-- The smallest number of subchannels in service in a partition of a module. -/
def State.nMinOf (s : State) (m : BitVec 10) : Nat :=
  if m = s.me then
    (List.range s.label.variant.parts).foldl (fun n p => min n (s.nSub - s.begunOuts p)) s.nSub
  else let n := (SMap.get s.ae.mods m.toNat .zero).nMin; if n = 0 then (s.variantOf m).subs else n

/-- Logical domain ports of a module in use. -/
def State.portsOf (s : State) (m : BitVec 10) : List Nat := (List.range 15).filter fun j => (neighbour s.size m.toNat j).isSome

/-- Active lanes of a module's domain ports that are up. -/
def State.lanesOf (s : State) (m : BitVec 10) : Nat :=
  let per := if (s.variantOf m) = .n12 then 2 else 1
  ((s.portsOf m).map fun j =>
    let e := s.linkEntry m.toNat j
    if e.state = 1#2 then per * (if e.width = 0#2 then 4 else if e.width = 1#2 then 2 else 1) else 0).sum

/-- Are a module's SLOT charges counted as XFER: it is OFF-PLAN, or a domain port of it has its SLOTS bit clear (R328)? -/
def State.slotAsXfer (s : State) (m : BitVec 10) : Bool :=
  (SMap.get s.ae.mods m.toNat .zero).offPlan.isSome || (s.portsOf m).any fun j => !(s.linkEntry m.toNat j).slots

/-- The admission header, or one that admits nothing while no plate is in effect. -/
def State.admHdr (s : State) : AdmHeader := (s.boot.plate.map (·.admission)).getD ⟨0#16, 1000#16, 0#16, 0#8, 0#8, false⟩

/-- The resources of R327 in the order of R331. -/
inductive Resource where
  | time
  | read
  | xfer
  | slot
  | rows
deriving DecidableEq, Repr

/-- Number of a resource in a REFUSE: its place in that order from 1 (Table 14.11). -/
def Resource.num (r : Resource) : Nat :=
  match r with
  | .time => 1
  | .read => 2
  | .xfer => 3
  | .slot => 4
  | .rows => 5

/-- The resources in order. -/
def resources : List Resource := [.time, .read, .xfer, .slot, .rows]

/-- A resource of a charge. -/
def Charge.of (c : Charge) (r : Resource) : Nat :=
  match r with
  | .time => c.time
  | .read => c.read
  | .xfer => c.xfer
  | .slot => c.slot
  | .rows => c.rows

/-- A module's capacity as a fraction, numerator and denominator (R327); slot and rows apply to an instance. -/
def State.capacity (s : State) (m : BitVec 10) (i : AdmRec) (r : Resource) : Nat × Nat :=
  let k := s.capacityNs
  let h := s.admHdr
  match r with
  | .time => (k, 1)
  | .read => (k * (s.variantOf m).parts * s.nMinOf m * 22 * bandCap h.thermalBand.toNat * 2, 100 * 3 * 4096)
  | .xfer => (k * (s.lanesOf m * 50) * h.fabShare.toNat, 1000 * 128)
  | .slot => (i.slotCap.toNat, 1)
  | .rows => (((s.instRec i.inst).map (·.maxRows.toNat)).getD 0, 1)

/-! ## The checks of a stroke (R328) -/

/-- BASE of an instance. -/
def AdmRec.baseCharge (r : AdmRec) : Charge := r.base.times 1

/-- SLOT charges counted as XFER where they must be. -/
def Charge.unslot (c : Charge) (yes : Bool) : Charge := if yes then { c with xfer := c.xfer + c.slot, slot := 0 } else c

/-- The charges in stroke m of one instance on its modules, from its ledger entries, and whether it has a row. -/
def State.instCharges (s : State) (l : List LedgerEntry) (inst : BitVec 16) (m : Nat) : Charges × Bool :=
  match s.admRec inst with
  | none => (.zero, false)
  | some r =>
    l.foldl (fun acc e =>
      if e.inst = inst then
        match s.cclass e.terms.cclass with
        | some c => let ch := scheduleCharges r c e m; (acc.1.add ch, acc.2 || hasRow ch)
        | none => acc
      else acc) (.zero, false)

/-- Instances that run on a module. -/
def State.instsOf (s : State) (m : BitVec 10) : List (BitVec 16) :=
  match s.boot.plate with
  | none => []
  | some p => (p.instances.filter fun r => r.modules.contains m).map (·.inst)

/-- The three sums of a check on a module in a stroke, over the instances that a resource is counted for. -/
structure Sums where
  serving : Charge
  twin    : Charge
  full    : Charge

/-- Sums of charges of instances. -/
def State.sumsOf (s : State) (m : BitVec 10) (l : List LedgerEntry) (insts : List (BitVec 16)) (n : Nat) : Sums :=
  let u := s.slotAsXfer m
  insts.foldl (fun t i =>
    let ch := s.instCharges l i n
    let base := if ch.2 then ((s.admRec i).map AdmRec.baseCharge).getD .zero else .zero
    let firm := (base.add ch.1.firm).unslot u
    { serving := t.serving.add firm, twin := t.twin.add ((ch.1.firm.add ch.1.replay).unslot u), full := t.full.add (firm.add (ch.1.soft.unslot u)) })
    ⟨.zero, .zero, .zero⟩

/-- Does a sum stay within some permille of a capacity? -/
def within (x : Nat) (cap : Nat × Nat) (permille : Nat) : Bool := x * cap.2 * 1000 ≤ cap.1 * permille

/-- Limits of the three checks in permille: serving, twin, full. -/
def AdmHeader.limits (h : AdmHeader) : Nat × Nat × Nat :=
  (1000 - h.resTwin.toNat - h.resCatch.toNat, h.resTwin.toNat, 1000 - h.resCatch.toNat)

/-- The instances a resource's capacity applies to: one for slot and rows, all of the module's for the others. -/
def Resource.scope (r : Resource) (inst : BitVec 16) (all : List (BitVec 16)) : List (BitVec 16) :=
  match r with
  | .slot | .rows => [inst]
  | _ => all

/-- The first check that a module fails in a stroke, with its resource: 0x08 serving, 0x09 twin, 0x0A full (R328, R331). -/
def State.failsAt (s : State) (l : List LedgerEntry) (inst : BitVec 16) (m : BitVec 10) (n : Nat) (res : List Resource) : Option (Nat × Resource) :=
  match s.admRec inst with
  | none => none
  | some i =>
    let lim := s.admHdr.limits
    let all := s.instsOf m
    res.findSome? fun r =>
      let t := s.sumsOf m l (r.scope inst all) n
      let cap := s.capacity m i r
      if !within (t.serving.of r) cap lim.1 then some (0x08, r)
      else if s.twinned && !within (t.twin.of r) cap lim.2.1 then some (0x09, r)
      else if !within (t.full.of r) cap lim.2.2 then some (0x0A, r)
      else none

end Sys2Proof.Machine
end

