-- ==== Sys2Proof/Machine/Ast.lean ====
section
/-! DEFINITION. Ast.lean: AST packets and messages as bytes, sealing, sending, pacing and acknowledging on an endpoint (spec/14 R350 to R369), and
the system's own writes to session structures. -/
namespace Sys2Proof
open Machine

/-! ## Bytes (Tables 14.2, 14.7) -/

/-- The 48 bytes of a packet header. -/
def hdrBytes (h : AstHdr) : List Byte :=
  leBytes 48 (h.version.toNat * 2 ^ 376 + h.ptype.toNat * 2 ^ 372 + (h.rsvd.toNat / 2 ^ 40) * 2 ^ 370 + h.ackReq.toNat * 2 ^ 369 +
    h.resume.toNat * 2 ^ 368 + h.endpoint.toNat * 2 ^ 360 + h.conn.toNat * 2 ^ 328 + h.seq.toNat * 2 ^ 264 + h.ack.toNat * 2 ^ 200 +
    h.low.toNat * 2 ^ 136 + h.sack.toNat * 2 ^ 72 + h.len.toNat * 2 ^ 56 + h.window.toNat * 2 ^ 40 + h.rsvd.toNat % 2 ^ 40)

/-- Bytes of a message: header, body, zero padding to a multiple of 8 (R367). -/
def msgBytes (m : Msg) : List Byte :=
  leBytes 8 (m.type.toNat * 2 ^ 56 + m.rsvd.toNat * 2 ^ 48 + m.len.toNat * 2 ^ 32 + m.low.toNat) ++ m.body ++
    List.replicate ((8 - m.body.length % 8) % 8) 0#8

/-- The nonce of a direction (0 client to device, 1 device to client) and SEQ (R352). -/
def astNonce (dir : Nat) (seq : BitVec 64) : Nat := dir + seq.toNat * 2 ^ 32

/-- The tag of a packet under a key. -/
def astTag (key : BitVec 256) (dir : Nat) (h : AstHdr) (msgs : List Msg) : BitVec 128 :=
  Config.gcmTag key (astNonce dir h.seq) (hdrBytes h) (msgs.flatMap msgBytes)

/-- A message of a type and low word with a body. -/
def mkMsg (type : Nat) (low : BitVec 32) (body : List Byte) : Msg := ⟨BitVec.ofNat 8 type, 0#8, BitVec.ofNat 16 body.length, low, body⟩

/-- Does a message meet LEN and its reserved bits? -/
def Msg.lenOk (m : Msg) : Bool := m.rsvd = 0#8 && m.len.toNat = m.body.length

/-- Field [hi:lo] of a message body read as one little-endian number. -/
def Msg.field (m : Msg) (hi lo : Nat) : Nat := bitsOf (leNat m.body) hi lo

end Sys2Proof

namespace Sys2Proof.Machine

/-! ## Endpoints -/

/-- A live endpoint. -/
def State.ep (s : State) (n : Nat) : Option Endpoint := SMap.find s.trans.eps n

/-- A live endpoint changed. -/
def State.modEp (s : State) (n : Nat) (f : Endpoint → Endpoint) : State :=
  { s with trans := { s.trans with eps := SMap.modify s.trans.eps n f } }

/-- Body bytes of packets held beyond the in-order point: what fills the receive share of 128 KiB (R360, R361). -/
def Endpoint.heldBytes (e : Endpoint) : Nat := (e.rxHeld.map fun p => (p.msgs.flatMap msgBytes).length).sum

/-- WINDOW advertised, in units of 64 B (R361). -/
def Endpoint.windowField (e : Endpoint) : BitVec 16 := BitVec.ofNat 16 (min ((131072 - e.heldBytes) / 64) 0xFFFF)

/-- The in-order point (R362): the highest SEQ up to which every packet is processed, lies below the sender's LOW, or has been received and waits
only to be processed. Held packets stand in SEQ order. -/
def Endpoint.inPoint (e : Endpoint) : Nat :=
  e.rxHeld.foldl (fun n p => if p.hdr.seq.toNat ≤ n + 1 then max n p.hdr.seq.toNat else n) e.rxPoint

/-- SACK: bit k, packet in-order point + 2 + k received. -/
def Endpoint.sackField (e : Endpoint) : BitVec 64 :=
  BitVec.ofNat 64 ((List.range 64).foldl (fun v k => if e.rxHeld.any fun p => p.hdr.seq.toNat = e.inPoint + 2 + k then v + 2 ^ k else v) 0)

/-- Unacknowledged body bytes. -/
def Endpoint.flight (e : Endpoint) : Nat := (e.unacked.map (·.bytes)).sum

/-- LOW: the lowest SEQ still held for retransmission (R350, R364). -/
def Endpoint.lowField (e : Endpoint) (next : Nat) : Nat := ((e.unacked.head?).map (·.seq)).getD next

/-- The header of a packet that an endpoint seals. -/
def Endpoint.header (e : Endpoint) (num : Nat) (ptype : Nat) (seq low len : Nat) (resume : Bool) : AstHdr :=
  { version := 1#8, ptype := BitVec.ofNat 4 ptype, ackReq := false, resume := resume, endpoint := BitVec.ofNat 8 num, conn := e.conn,
    seq := BitVec.ofNat 64 seq, ack := BitVec.ofNat 64 e.inPoint, low := BitVec.ofNat 64 low, sack := e.sackField,
    len := BitVec.ofNat 16 len, window := e.windowField, rsvd := 0#42 }

/-- A sealed packet leaves the host port, while it has link. -/
def State.emitAst (s : State) (p : AstPkt) : State := if s.trans.linkUp then s.emit (.ast p) else s

/-- The oldest unacknowledged packets abandoned until n more bytes fit into the transmit share of 256 KiB (R364). -/
def makeRoom (n : Nat) : Nat → Endpoint → Endpoint
  | 0, e => e
  | k + 1, e =>
    if e.flight + n ≤ 262144 then e
    else makeRoom n k { e with unacked := e.unacked.drop 1, abandoned := e.abandoned + 1 }

/-- The retransmission timeout: 1 ms before any measurement, else SRTT + 4 RTTVAR within 100 µs to 100 ms (R364). -/
def Endpoint.rto (e : Endpoint) : Nat :=
  match e.srtt with
  | none => 1000000
  | some r => max 100000 (min 100000000 (r + 4 * e.rttvar))

/-- A new DATA packet sealed and sent; it waits for its acknowledgement. -/
def State.sendData (s : State) (num : Nat) (msgs : List Msg) : State :=
  match s.ep num with
  | none => s
  | some e0 =>
    let body := msgs.flatMap msgBytes
    let e := makeRoom body.length e0.unacked.length e0
    let s := s.count (modCtr 0x0063 0) (e.abandoned - e0.abandoned)
    let h := e.header num 5 e.txNext (e.lowField e.txNext) body.length false
    let p : AstPkt := { hdr := h, msgs := msgs, tag := astTag e.keyOut 1 h msgs, src := e.addr }
    let sent : SentPkt := { seq := e.txNext, pkt := p, bytes := body.length, sends := 1, sentAt := s.time.mono, rto := e.rto, sacked := false, due := false }
    let s := s.modEp num fun _ => { e with txNext := e.txNext + 1, unacked := e.unacked ++ [sent], ackDue := none }
    s.emitAst p

/-- An ACK packet sealed and sent; it is never held for retransmission. -/
def State.sendAck (s : State) (num : Nat) : State :=
  match s.ep num with
  | none => s
  | some e =>
    let h := e.header num 6 e.txNext (e.lowField (e.txNext + 1)) 0 false
    let s := s.modEp num fun e => { e with txNext := e.txNext + 1, ackDue := none }
    s.emitAst { hdr := h, msgs := [], tag := astTag e.keyOut 1 h [], src := e.addr }

/-- An unpaced message leaves at once (R366). -/
def State.sendMsg (s : State) (num : Nat) (m : Msg) : State := s.sendData num [m]

/-- A paced message waits for the pacer and the window (R366). -/
def State.paceMsg (s : State) (num : Nat) (m : Msg) : State := s.modEp num fun e => { e with pacedq := e.pacedq ++ [m] }

/-- ERROR: the offending TYPE and a code of Table 14.9, with the low word of the offending message (R369). -/
def State.sendError (s : State) (num : Nat) (type : BitVec 8) (low : BitVec 32) (code : Nat) : State :=
  s.paceMsg num (mkMsg 0x0F low [BitVec.ofNat 8 code, type])

/-! ## Pacing (R366) -/

/-- Pacer tokens in bytes at an instant: PACE × 100 Mb/s, a burst of 64 KiB. -/
def Endpoint.tokens (e : Endpoint) (now : Nat) : Nat := min 65536 (e.bucket + (now - e.bucketAt.toNat) * e.pace / 80)

/-- May a packet of n body bytes go by the pacer and the client's window? -/
def Endpoint.mayPace (e : Endpoint) (now n extra : Nat) : Bool := n ≤ e.tokens now && e.flight - extra + n ≤ e.window

/-- The pacer pays for n bytes. -/
def Endpoint.pay (e : Endpoint) (now : Word64) (n : Nat) : Endpoint := { e with bucket := e.tokens now.toNat - n, bucketAt := now }

/-! ## Writes of the system to session structures (R371 to R373, R423) -/

/-- One granule-sized piece of a system write, as the request it is: a whole granule or a byte-masked one. -/
def State.sysPacket (s : State) (g off : Nat) (bytes : List Byte) : Packet :=
  let whole := off = 0 && bytes.length = 128
  let data := padTo 128 0#8 (List.replicate off 0#8 ++ bytes)
  let mask := (2 ^ bytes.length - 1) * 2 ^ off
  { type := if whole then 2#8 else 3#8, vc := 1#2, hops := 0#3, cls := 2#2,
    dst := ((s.homeOf (gaBlock (granuleAddr g))).map (·.1)).getD s.me, src := s.me, spart := 0xF#4, dpart := 0#4, gen := (s.part 15).de.fgen, txn := 0#16,
    status := 0#4, addr := granuleAddr g, arg := 0#120,
    payload := if whole then [granuleOf data] else [granuleOf data, BitVec.ofNat 1024 mask] }

/-- A byte string cut at granule boundaries: granule, offset in it, bytes. -/
def granulePieces : Nat → Nat → List Byte → List (Nat × Nat × List Byte)
  | 0, _, _ => []
  | n + 1, a, bs =>
    if bs.isEmpty then []
    else
      let k := 128 - a % 128
      (a / 128, a % 128, bs.take k) :: granulePieces n (a + k) (bs.drop k)

/-- A system write of bytes at a memory-space address under a priority class: served here, or sent to its home. -/
def State.classWrite (s : State) (cls : BitVec 2) (a : Nat) (bytes : List Byte) : State :=
  (granulePieces (bytes.length / 128 + 2) a bytes).foldl (fun s g =>
    let p := { s.sysPacket g.1 g.2.1 g.2.2 with cls := cls }
    if p.dst = s.me then
      match s.serve p [] with
      | .answer s _ => s
      | .wait s w => s.wait none p w
    else (s.sendPacket p).state) s

/-- A system write at class 2. -/
def State.sysWrite (s : State) (a : Nat) (bytes : List Byte) : State := s.classWrite 2#2 a bytes

end Sys2Proof.Machine
end

