-- ==== Sys2Proof/Machine/SessOps.lean ====
section
/-! DEFINITION. SessOps.lean: what the port module does with a session: exclusions and breaches, sending its tokens, closing it, draining it
(spec/13 R339 to R345, spec/14 R374 to R377, spec/18 R480). -/
namespace Sys2Proof.Machine

/-! ## Counting -/

/-- Is a session open on this port module? -/
def State.isOpenHere (s : State) (x : Session) : Bool := x.port = s.me && x.closing.isNone

/-- Sessions open of an endpoint. -/
def State.openOf (s : State) (num : Nat) : Nat := s.sess.list.countP fun x => s.isOpenHere x && x.ep.toNat = num

/-- The counter of sessions open (0x0010). -/
def State.noteOpen (s : State) : State := s.level (modCtr 0x0010 0) (s.sess.list.countP s.isOpenHere)

/-! ## The exclusion of a breach (R343, R344) -/

/-- The last stroke before n that ended with no lag (R339). -/
def lastClear (lagged : List Nat) : Nat → Nat
  | 0 => 0
  | n + 1 => if lagged.contains n then lastClear lagged n else n

/-- Is an exclusion in force for a session at some stroke of an interval? -/
def ExclSpan.meets (e : ExclSpan) (x : Session) (lo hi : Nat) : Bool :=
  (e.only.isNone || e.only = some x.key) && e.start.toNat ≤ hi &&
    match e.stop with
    | some z => lo ≤ z.toNat
    | none => true

/-- The lowest code of an exclusion in force in the window of an output due in a stroke; 0 for none (R344). -/
def State.exclFor (s : State) (x : Session) (due : Nat) : Nat :=
  let lo := lastClear s.su.lagged due
  let codes := (s.sess.excls.filter fun e => e.meets x lo (due + x.terms.grace.toNat)).map (·.code)
  match codes with
  | [] => 0
  | c :: r => r.foldl min c

/-! ## Closing (R376, R377, R480) -/

/-- The CLOSED body (Table 14.13). -/
def closedBody (x : Session) (stroke : Stroke) (reason excl : Nat) : List Byte :=
  leBytes 16 (stroke.toNat * 2 ^ 80 + x.sendNext * 2 ^ 48 + x.breaches * 2 ^ 16 + excl * 2 ^ 12 + reason)

/-- The first stroke whose batch table has not been built: charges of a closed session go from there (R345). -/
def State.firstUnbuilt (s : State) : Nat :=
  if s.closeAt s.time.stroke.toNat < s.time.ft.toNat then s.time.stroke.toNat + 2 else s.time.stroke.toNat + 1

/-- The charges of a session leave the ledger. -/
def State.stopCharges (s : State) (k : SessKey) : State :=
  let n := BitVec.ofNat 48 s.firstUnbuilt
  { s with ae := { s.ae with dirty := true, ledger := s.ae.ledger.map fun e =>
      if e.key = k && e.stop.isNone then { e with stop := some n } else e } }

/-- The modules of a session's instance. -/
def State.instModules (s : State) (inst : BitVec 16) : List (BitVec 10) := ((s.instRec inst).map InstanceRec.modules).getD []

/-- DRAINED goes to the manager for every closed session whose last row's work is complete here (R480). -/
def State.sendDrained (s : State) : State :=
  s.sess.list.foldl (fun s x =>
    match x.closing with
    | some c =>
      if !c.drained && x.lastRow.toNat ≤ s.su.doneWork.toNat && (s.instModules x.inst).contains s.me then
        (s.modSession x.key fun y => { y with closing := some { c with drained := true } }).send s.ae.manager (.drained x.port x.handle)
      else s
    | none => s) s

/-- A session closes: no more rows are built for it and no more tokens are sent; CLOSED follows from its port module (R376, R377). -/
def State.closeSession (s : State) (k : SessKey) (reason excl : Nat) : State :=
  match s.session k with
  | none => s
  | some x =>
    if x.closing.isSome then s
    else
      let n := s.time.stroke
      let c : Closing := ⟨BitVec.ofNat 8 reason, BitVec.ofNat 4 excl, n, false⟩
      let s := (s.modSession k fun y => { y with closing := some c, held := [], replay := none }).noteOpen
      let s := if s.isManager then s.stopCharges k else s
      let s := if x.port = s.me then
          ((s.ae.manager :: s.instModules x.inst).filter (· ≠ s.me)).foldl (fun s m => s.send m (.report (.closed k.port k.handle (reason = 3))))
            (s.sendMsg x.ep.toNat (mkMsg 7 k.handle (closedBody x n reason excl)))
        else s
      s.sendDrained

/-! ## Tokens (R374, R375, R425) -/

/-- The ring entries from an output on that have come without a gap. -/
def readyFrom (ring : SMap RingEntry) : Nat → Nat → List RingEntry
  | 0, _ => []
  | n + 1, i =>
    match SMap.find ring (i % 64) with
    | some e => if e.outIndex.toNat = i then e :: readyFrom ring n (i + 1) else []
    | none => []

/-- The outputs of a session ready for their first transmission. -/
def Session.ready (x : Session) : List RingEntry := readyFrom x.ring 64 x.sendNext

/-- The TOKENS body: COUNT, then the entries in ascending OUT_INDEX. -/
def tokensBody (es : List RingEntry) : List Byte := leBytes 8 (es.length * 2 ^ 56) ++ es.flatMap fun e => leBytes 16 (ringEncode e)

/-- FT of the end of the stroke by whose end an output due in a stroke is to be delivered (R339). -/
def State.deadlineOf (s : State) (x : Session) (due : Nat) : Nat := s.strokeStart (due + x.terms.grace.toNat + 1)

/-- An entry as it is transmitted first: late, it carries BREACH and EXCL (R374). -/
def State.stamp (s : State) (x : Session) (e : RingEntry) : RingEntry :=
  if s.deadlineOf x e.due.toNat < s.time.ft.toNat then { e with breach := true, excl := BitVec.ofNat 4 (s.exclFor x e.due.toNat) } else e

/-- A breach counted, with an alarm for one that no exclusion explains (R344). -/
def State.countBreach (s : State) (e : RingEntry) : State :=
  if e.breach then
    let s := s.count (modCtr 0x0013 0)
    if e.excl = 0#4 then (s.count (modCtr 0x0014 0)).alarm (devNotice 0x06 0x40 0x33 e.outIndex.toNat) else s
  else s

/-- First transmission of what a session has ready: the twin has each entry first, unless the pair is UNPAIRED (R425), then one TOKENS message;
after the message with END the session closes (R375). A validation session sends none (R410). -/
def State.sendTokens (s : State) (x : Session) : State :=
  match (if x.valid.isSome then [] else x.ready).map (s.stamp x) with
  | [] => s
  | es@(_ :: _) =>
    let s := if s.twin.phase = .unpaired then s else es.foldl (fun s e => s.emit (.twin (.token x.handle e))) s
    let s := es.foldl State.countBreach s
    let s := s.modSession x.key fun y =>
      { y with sendNext := y.sendNext + es.length, breaches := y.breaches + es.countP (·.breach),
               ring := es.foldl (fun r e => SMap.insert r (e.outIndex.toNat % 64) e) y.ring }
    let s := s.sendMsg x.ep.toNat (mkMsg 5 x.handle (tokensBody es))
    if es.any (·.fin) then s.closeSession x.key 2 0 else s

/-- TOKENS_SEND: the outputs acknowledged in a session's ring leave the host port, while it has link. -/
def execTokensSend (slot : BitVec 15) (s : State) : Res :=
  .next (match s.slotSession slot.toNat with
    | some x => if s.trans.linkUp && x.suspended.isNone then s.sendTokens x else s
    | none => s)

/-- PROMPT_DEADLINE (R330): at the start of the close of the stroke before its first, a session whose prompt is incomplete closes with
PROMPT_LATE. -/
def execPromptDeadline (slot : BitVec 15) (s : State) : Res :=
  .next (match s.slotSession slot.toNat with
    | some x =>
      let s := s.reach (s.closeAt (x.admAt.toNat + 1))
      if x.rcvd < x.terms.prompt.toNat then s.closeSession x.key 3 0 else s
    | none => s)

end Sys2Proof.Machine
end

