-- ==== Sys2Proof/Machine/Observe.lean ====
section
/-! DEFINITION. Observe.lean: counters, alarms and events as clients read them, trace records and the tracing port, dumps and hang snapshots
(spec/21), the attestation report (spec/20 R518), and the links of the Ethernet ports. -/
namespace Sys2Proof.Machine

/-! ## Records (Tables 21.2, 21.4) -/

/-- A counter record. -/
structure CtrRec where
  value  : Nat
  id     : Nat
  die    : Nat
  engine : Nat
  layer  : Nat
  oper   : Nat
  index  : Nat
  stroke : Nat
  state  : Nat
  row    : Nat

/-- Its 32 bytes. -/
def CtrRec.bytes (r : CtrRec) : List Byte :=
  recBytes 32 [(r.value % 2 ^ 64, 192), (r.id, 176), (r.die, 168), (r.engine, 160), (r.layer, 144), (r.oper, 128), (r.index % 2 ^ 24, 104),
    (r.stroke, 56), (r.state, 52), (r.row, 36)]

/-- The 32 bytes of a trace record. -/
def traceBytes (r : TraceRec) : List Byte :=
  recBytes 32 [(r.ft.toNat, 192), (r.stroke.toNat, 144), (r.kind.toNat, 136), (r.die.toNat, 128), (r.engine.toNat, 120), (r.layer.toNat, 104),
    (r.operator.toNat, 88), (r.payload.toNat, 0)]

/-! ## Set 0 (Table 21.1) -/

/-- Power for tenants: the mean of the last whole FT second to the nearest 10 W, ties upward (R498); the model keeps 0.1 W. -/
def tenantWatts (tenths : Nat) : Nat := (tenths + 50) / 100 * 10

/-- Does a sensor of a compute die read 100 °C (R498)? -/
def State.dieHot (s : State) (p : Nat) : Bool := s.pwr.cd[p]?.any fun t => (200 : Int) ≤ t

/-- The longest duration so far of an open throttle event of a reason, in whole milliseconds as µs. -/
def State.throttleSoFar (s : State) (reason : Nat) : Nat :=
  (s.pwr.open_.filter fun t => t.reason.toNat = reason).foldl (fun m t => max m (coarseUs (durationUs (s.time.mono.toNat - t.mono.toNat)))) 0

/-- The value of a counter when it is read: levels that other state holds are read from it. -/
def State.reading (s : State) (k : CtrKey) : Nat :=
  match k.id with
  | 0x0001 => s.boot.code.toNat
  | 0x0002 => (s.su.lag + 999) / 1000
  | 0x0024 => (s.dieHot k.die).toNat
  | 0x0050 => tenantWatts s.pwr.secPower
  | 0x0051 => s.pwr.energy.toNat / 10000
  | 0x0052 => max s.pwr.pstage s.pwr.tstage
  | 0x0053 => s.throttleSoFar k.index
  | _ => s.ctr k

/-- Counters of the module with INDEX 0. -/
def moduleCtrs : List Nat :=
  [0x0001, 0x0002, 0x0003, 0x0004, 0x0005, 0x0006, 0x0010, 0x0011, 0x0012, 0x0013, 0x0014, 0x0050, 0x0051, 0x0052, 0x0060, 0x0061, 0x0062,
   0x0063, 0x0070, 0x0071, 0x0072, 0x0073, 0x0081, 0x0082]

/-- The throttle reasons (Table 19.6). -/
def throttleReasons : List Nat := [1, 2, 3, 4, 5, 6, 7, 8]

/-- The names of the always-on counters; events dropped by rate limit (0x0080) are named where some were. -/
def State.set0 (s : State) : List CtrKey :=
  let v := s.label.variant
  (moduleCtrs.map fun i => modCtr i 0) ++ ((List.range 4).map fun c => modCtr 0x0046 c) ++ (throttleReasons.map fun r => modCtr 0x0053 r) ++
    ((s.obs.ctrs.filter fun c => c.key.id = 0x0080).map (·.key)) ++
    ((List.range v.parts).flatMap fun p => (List.range 5).map fun i => ⟨0x0020 + i, p, 0xFF, 0⟩) ++
    ((List.range (48 * v.stacks)).flatMap fun g => (List.range 6).map fun i => modCtr (0x0030 + i) g) ++
    ((List.range v.ports).flatMap fun j => (List.range 6).map fun i => modCtr (0x0040 + i) j)

/-- A cumulative counter or level as its record. -/
def State.ctrRecord (s : State) (k : CtrKey) : CtrRec :=
  ⟨s.reading k, k.id, k.die, k.engine, 0xFFFF, 0xFFFF, k.index, s.time.stroke.toNat, 1, 0xFFFF⟩

/-! ## Set 1 (R525, R526) -/

/-- The values of a command's counters, as records with its tag (0x0100 to 0x010C). -/
def cmdRecords (die engine state : Nat) (c : CmdCounts) (layer oper index stroke row : Nat) : List CtrRec :=
  let mk (id v : Nat) : CtrRec := ⟨v, id, die, engine, layer, oper, index, stroke, state, row⟩
  let base := [mk 0x0100 c.busy, mk 0x0101 c.stall, mk 0x0102 c.rdBytes, mk 0x0103 c.wrBytes]
  match unitOf engine with
  | .array _ _ => base ++ [mk 0x0104 c.macs, mk 0x010C c.sats]
  | .ve _ => base ++ (List.range 7).map fun i => mk (0x0105 + i) (c.st.get i)
  | _ => base

/-- The command that an engine runs, if any. -/
def Part.runningCmd (x : Part) (u : Unit') : Option RunCmd := (x.unitCmds u).find? fun c => c.startAt.isSome

/-- Counters of a running command so far: it is busy from its start. -/
def State.openCounts (s : State) (c : RunCmd) : CmdCounts :=
  { c.cnt with busy := min c.cnt.busy (cyclesOf (s.time.ft.toNat - ((c.startAt.map BitVec.toNat).getD 0))) }

/-- The per-command records of an engine: open while a command runs, else the closed ones (R525). -/
def State.engineRecords (s : State) (p engine : Nat) (want : Nat → Nat → Bool) : List CtrRec :=
  match (s.part p).runningCmd (unitOf engine) with
  | some c =>
    if want c.hdr.layer.toNat c.hdr.operator.toNat then
      cmdRecords p engine 0 (s.openCounts c) c.hdr.layer.toNat c.hdr.operator.toNat c.index c.stroke.toNat c.rowField
    else []
  | none =>
    match SMap.find (s.part p).closed engine with
    | some c =>
      if want c.layer.toNat c.oper.toNat then
        cmdRecords p engine c.state c.cnt c.layer.toNat c.oper.toNat c.index c.stroke.toNat (c.iter.getD 0xFFFF)
      else []
    | none => []

/-- The records of a tally entry (0x0140 to 0x0144). -/
def tallyRecords (s : State) (p layer oper state : Nat) (c : CmdCounts) : List CtrRec :=
  [c.busy, c.stall, c.rdBytes, c.wrBytes, c.macs].zipIdx.map fun v => ⟨v.1, 0x0140 + v.2, p, 0xFF, layer, oper, 0, s.time.stroke.toNat, state, 0xFFFF⟩

/-- The tally of a die; the overflow entry with STATE 3 (R526). -/
def State.tallyOf (s : State) (p : Nat) (want : Nat → Nat → Bool) : List CtrRec :=
  ((s.part p).tally.filter fun e => want e.layer.toNat e.oper.toNat).flatMap (fun e => tallyRecords s p e.layer.toNat e.oper.toNat 1 e.cnt) ++
    (if 4096 ≤ (s.part p).tally.length then tallyRecords s p 0xFFFF 0xFFFF 3 (s.part p).tallyOver else [])

/-- The cumulative counters of set 1 of a die: banks by losing class, groups, DE, partition. -/
def set1Cumulative (p : Nat) : List CtrKey :=
  ((List.range 64).flatMap fun b => (List.range 3).map fun c => ⟨0x0110, p, 0xFF, 4 * b + c⟩) ++
    ((List.range 16).map fun q => ⟨0x0111, p, 0xFF, q⟩) ++ ((List.range 5).map fun i => ⟨0x0120 + i, p, deCode, 0⟩) ++
    ((List.range 4).map fun i => ⟨0x0130 + i, p, 0xFF, 0⟩)

/-- Set 1, the per-command and tally counters of the LAYER and OPERATOR asked for (R379). -/
def State.set1 (s : State) (layer oper : Nat) : List CtrRec :=
  let want (l o : Nat) : Bool := (layer = 0xFFFF || l = layer) && (oper = 0xFFFF || o = oper)
  (List.range s.label.variant.parts).flatMap fun p =>
    (engineCodes.flatMap fun e => s.engineRecords p e want) ++ (set1Cumulative p).map s.ctrRecord ++ s.tallyOf p want

/-! ## OBSERVATION messages (R379, R518, R530) -/

/-- Bytes of a message body that a DATA packet can hold: 9,088 less the message header. -/
def bodyMax : Nat := 9080

/-- OBSERVATION messages: each begins with the sample FT, and the pieces follow one another as far as whole pieces fit. -/
def observations (ft : BitVec 64) (pieces : List Byte) (unit' : Nat) : List Msg :=
  let k := (bodyMax - 8) / unit' * unit'
  let parts := if pieces.isEmpty then [[]] else chunksOf k ((pieces.length + k - 1) / k) pieces
  parts.map fun b => mkMsg 0x0B 0#32 (leBytes 8 ft.toNat ++ b)

/-- Messages queued behind an endpoint's pacer. -/
def State.paceAll (s : State) (num : Nat) (ms : List Msg) : State := ms.foldl (fun s m => s.paceMsg num m) s

/-- LEN and the fields that must be zero in an OBSERVE. DESIGN CHOICE (notes/assumptions/70), against R9, as in `openBad`. -/
def observeOk (m : Msg) : Bool := m.lenOk && m.len = 8#16 && m.field 23 0 = 0 && m.low = 0#32

/-- OBSERVE of SET 0 or 1. -/
def State.observeCounters (s : State) (num : Nat) (m : Msg) : State :=
  if !observeOk m then s.sendError num m.type m.low 2
  else if m.field 63 56 = 0 then s.paceAll num (observations s.ftOr0 (s.set0.flatMap fun k => (s.ctrRecord k).bytes) 32)
  else if s.sec.setup.obsLevel = 0#2 then s.sendError num m.type m.low 6
  else s.paceAll num (observations s.ftOr0 ((s.set1 (m.field 55 40) (m.field 39 24)).flatMap CtrRec.bytes) 32)

/-- An alarm table entry as a trace record (Table 21.5). -/
def AlarmEntry.rec' (e : AlarmEntry) : TraceRec :=
  { ft := e.ft, stroke := e.stroke, kind := 5#8, die := e.die, engine := e.engine, layer := 0xFFFF#16, operator := 0xFFFF#16,
    payload := BitVec.ofNat 80 (e.space.toNat * 2 ^ 72 + e.code.toNat * 2 ^ 64 + (e.count % 2 ^ 32) * 2 ^ 32 + e.detail.toNat) }

/-- An event log entry as a trace record. -/
def EventEntry.rec' (e : EventEntry) : TraceRec :=
  { ft := e.ft, stroke := e.stroke, kind := 4#8, die := e.die, engine := e.engine, layer := 0xFFFF#16, operator := 0xFFFF#16,
    payload := BitVec.ofNat 80 (e.space.toNat * 2 ^ 72 + e.code.toNat * 2 ^ 64 + e.seq.toNat * 2 ^ 32 + e.detail.toNat) }

/-- OBSERVE of SET 3: the alarm table, then the event log, oldest first. -/
def State.observeAlarms (s : State) (num : Nat) (m : Msg) : State :=
  if !observeOk m then s.sendError num m.type m.low 2
  else
    let recs := (s.obs.alarms ++ s.obs.reserved).map AlarmEntry.rec' ++ s.obs.events.map EventEntry.rec'
    s.paceAll num (observations s.ftOr0 (recs.flatMap traceBytes) 32)

/-- The boot record in force: the valid copy with the higher COUNT; a start from slot 0 with SERIAL_FLOOR 0 when there is none (R385). -/
def BootState.record (b : BootState) : BootRec :=
  match b.rec0, b.rec1 with
  | some x, some y => if x.count.toNat < y.count.toNat then y else x
  | some x, none => x
  | none, some y => y
  | none, none => ⟨0#8, false, 0#64, 0#8, 0#8, 0#32⟩

/-! ## The attestation report (R518, Table 20.8) -/

/-- Subchannels mapped out, and rows retired. -/
def State.outCount (s : State) : Nat :=
  ((List.range s.label.variant.parts).map fun p => ((s.part p).mapOuts.filter (·.out)).length).sum
def State.retiredCount (s : State) : Nat :=
  (s.mem.subs.map fun x => (x.2.banks.filter fun b => b.2.standIn.isSome).length).sum

/-- A digest as it is signed under a context string. -/
def signBytes (ctx : String) (digest : BitVec 512) : List Byte := signed ctx (leBytes 64 digest.toNat)

/-- The report; `th` is that of the asking endpoint, zero on the sideband, where plate and protection fields are zero before check 3 has passed;
the digest of an object that is not loaded yet is zero (DESIGN CHOICE, notes/assumptions/60). -/
def State.report (s : State) (th : BitVec 512) (side : Bool) : List Byte :=
  let objects := (s.boot.plate.map fun p => p.objects.length).getD 0
  let seen := s.boot.step ≥ 4 || !side
  let z (n : Nat) : Nat := if seen then n else 0
  let setup := s.sec.setup
  let sites := (s.label.sites.flatMap fun x => [x.1, x.2])
  let head :=
    leBytes 2 1 ++ leBytes 2 (z objects) ++ leBytes 4 0 ++ leBytes 8 s.ftOr0.toNat ++ leBytes 8 s.time.stroke.toNat ++
    leBytes 2 (z ((s.boot.plate.map fun p => p.header.domainId.toNat).getD 0)) ++
    leBytes 2 (z (s.me.toNat + s.side.toNat * 1024) + s.label.variant.code * 2048) ++
    leBytes 2 s.label.revision.toNat ++ leBytes 2 0 ++ leBytes 8 s.label.serial.toNat ++ sites ++ leBytes 8 s.label.romVer.toNat
  let plate :=
    leBytes 8 (z ((s.boot.plate.bind fun p => p.firmware.map fun f => f.version.toNat).getD 0)) ++
    leBytes 64 (z ((s.boot.plate.bind fun p => p.firmware.map fun f => f.measure.toNat).getD 0)) ++
    leBytes 64 (z ((s.boot.plate.map fun p => p.measure.toNat).getD 0)) ++
    leBytes 8 (z ((s.boot.plate.map fun p => p.header.serial.toNat).getD 0)) ++
    leBytes 8 s.boot.record.floor.toNat
  let prot :=
    leBytes 64 (z (setupDigest setup s.sec.clients).toNat) ++ leBytes 8 (z s.sec.counter.toNat) ++
    leBytes 4 (z (s.sec.epoch.toNat + s.sec.root.isSome.toNat * 65536)) ++
    leBytes 4 (z (setup.ceiling.toNat * 65536 + setup.obsLevel.toNat * 4 + setup.linkEnc.toNat * 2 + (setup.tenant ≠ 0#512 : Bool).toNat)) ++
    leBytes 8 (z setup.notAfter.toNat)
  let tail :=
    leBytes 8 (s.outCount % 65536 + (s.retiredCount % 65536) * 65536 + (s.pwr.trips % 256) * 2 ^ 32) ++ leBytes 64 s.label.identity.toNat ++
    leBytes 64 th.toNat ++ leBytes 1568 (Config.epochKey s.sec.seed).toNat ++ ((List.range (z objects)).flatMap fun i => leBytes 64 ((s.boot.digests[i]?.map BitVec.toNat).getD 0)) ++
    leBytes 4627 s.label.endorse.toNat
  let body := head ++ plate ++ prot ++ tail
  body ++ leBytes 4627 (Config.mldsaSign s.label.identity (signBytes "SKZ attest" (Config.sha3 body))).toNat

/-- OBSERVE of SET 2: the report, at every observation level. -/
def State.observeAttestation (s : State) (num : Nat) (m : Msg) : State :=
  if !observeOk m then s.sendError num m.type m.low 2
  else s.paceAll num (observations s.ftOr0 (s.report (((s.ep num).map (·.th)).getD 0#512) false) 1)

/-- OBSERVE of any SET (R379, R530). -/
def State.observe (s : State) (num : Nat) (m : Msg) : State :=
  match m.field 63 56 with
  | 0 | 1 => s.observeCounters num m
  | 2 => s.observeAttestation num m
  | 3 => s.observeAlarms num m
  | _ => s.sendError num m.type m.low 2

/-- A message on a live endpoint acted on. -/
def onEp (s : State) (num : Nat) (f : State → State) : State := if (s.ep num).isSome then f s else s

/-- OBSERVE_COUNTERS. -/
def execObserveCounters (ep : BitVec 8) (m : Msg) (s : State) : Res := .next (onEp s ep.toNat fun s => s.observeCounters ep.toNat m)
/-- OBSERVE_ATTESTATION. -/
def execObserveAttestation (ep : BitVec 8) (m : Msg) (s : State) : Res := .next (onEp s ep.toNat fun s => s.observeAttestation ep.toNat m)
/-- OBSERVE_ALARMS. -/
def execObserveAlarms (ep : BitVec 8) (m : Msg) (s : State) : Res := .next (onEp s ep.toNat fun s => s.observeAlarms ep.toNat m)

/-! ## BULK (R380, Table 14.14) -/

/-- The chunk header. -/
def bulkHeader (tensor taken offset total : Nat) : List Byte := recBytes 32 [(tensor, 232), (taken, 184), (offset, 120), (total, 56)]

/-- Data bytes of a BULK message. -/
def bulkData : Nat := bodyMax - 32

/-- A capture cut into BULK messages; a failed or empty one is a single chunk with TOTAL 0. -/
def bulkMessages (tensor taken : Nat) (data : List Byte) : List Msg :=
  let parts := if data.isEmpty then [[]] else chunksOf bulkData ((data.length + bulkData - 1) / bulkData) data
  parts.zipIdx.map fun b => mkMsg 0x0E 0#32 (bulkHeader tensor taken (b.2 * bulkData) data.length ++ b.1)

/-- A capture queued on its endpoint. -/
def State.queueBulk (s : State) (num : Nat) (tensor : BitVec 24) (taken : Stroke) (data : List Byte) : State :=
  (s.modEp num fun e => { e with bulk := e.bulk.map fun b => { b with taken := some taken, data := data } }).paceAll num
    (bulkMessages tensor.toNat taken.toNat data)

/-! ## Hang snapshots (R541, Tables 21.8, 21.9) -/

/-- An entry: kind, die, engine code, IN_RESET and the kind's own fields. -/
def snapEntry (kind die engine : Nat) (inReset : Bool) (source : Bool) (fields : List (Nat × Nat)) : List Byte :=
  recBytes 32 ([(kind, 248), (die, 240), (engine, 232), (source.toNat, 215), (inReset.toNat, 214)] ++ fields)

/-- A STREAM entry. -/
def State.snapStream (s : State) (p : Nat) (o : Owner) (src : Bool) (q : StreamPos) : List Byte :=
  let x := s.part p
  let w := (s.headWord p o q).getD 0#512
  let h := wordHdr w
  let row := ((q.loop.bind fun l => l.rows[l.iter]?)).getD 0xFFFF
  snapEntry 1 p (ownerCode o) x.reset.isSome src
    [(q.inst.toNat, 192), (q.prog.toNat, 190), (q.pos % 2 ^ 24, 166), (wordOpcode w, 158), (q.waiting.toNat, 157), ((x.owner o).parked.toNat, 156),
     (h.waitSem.toNat, 143), (h.waitCount.toNat, 127), (x.effective s.su.work h.waitSem.toNat, 111), (row % 65536, 95), (q.issued % 2 ^ 24, 71)]

/-- The streams of an owner: its serving one, and the job's where it stands in one. -/
def State.snapOwner (s : State) (p : Nat) (src : Bool) (o : Owner) : List Byte :=
  let x := (s.part p).owner o
  s.snapStream p o src x.serve ++ (if x.job.prog = 2#2 then s.snapStream p o src x.job else [])

/-- An ENGINE entry. -/
def State.snapEngine (s : State) (p : Nat) (src : Bool) (e : Nat) : List Byte :=
  let x := s.part p
  let u := unitOf e
  let l := x.unitCmds u
  let run := x.runningCmd u
  snapEntry 2 p e x.reset.isSome src
    [((l.countP fun c => c.startAt.isNone) % 256, 200), ((run.map fun c => c.index % 2 ^ 24).getD 0xFFFFFF, 176),
     ((run.map fun c => c.kind.opcode).getD 0, 168),
     ((run.map fun c => (s.time.ft.toNat - (c.startAt.map BitVec.toNat).getD 0) / 1000 % 2 ^ 32).getD 0, 136), ((x.genOf u).toNat, 120)]

/-- The DE entry of a partition. -/
def State.snapDe (s : State) (p : Nat) (src : Bool) : List Byte :=
  let d := (s.part p).de
  snapEntry 3 p deCode (s.part p).reset.isSome src
    [(d.inflight.length % 4096, 196), ((d.inflight.countP fun r => r.pkt.dst ≠ s.me) % 4096, 184), (d.expq.length % 512, 175),
     (d.bookFetch.length % 16, 171), (d.fgen.toNat, 159), ((s.part p).early.length % 512, 150)]

/-- Credits that a port holds for a VC's hop class: what is left of the class's reserve and of the shared remainder (R300). -/
def PortState.creditsFor (x : PortState) (vc c : Nat) : Nat :=
  let b := vcBuffer vc
  let over_ (h : Nat) : Nat := x.holds (vcKey vc h) - b.1
  (b.1 - x.holds (vcKey vc c)) + (b.2 - ((List.range 5).map over_).sum)

/-- A PORT entry of a port and VC. -/
def State.snapPort (s : State) (j vc : Nat) : List Byte :=
  let x := s.port j
  let e := s.linkEntry s.me.toNat (s.logicalOf j)
  let credits := (List.range 5).map fun c => (x.creditsFor vc c, 132 + 14 * c)
  let kept := (s.mem.waits.filterMap Waiting.inb) ++ s.fab.waiting.filterMap (·.inb)
  let buf := ((kept.filter fun b => b.1 = j && b.2.vc.toNat = vc).map fun b => s.packetUnits b.2).sum
  snapEntry 4 (linkDie j) (j % 4) false false
    ([(vc, 206), (e.state.toNat * 4 + e.width.toNat, 202), (buf % 16384, 118), (((x.replay.map fun r => s.packetUnits r.pkt).sum) % 4096, 106)] ++ credits)

/-- A LINK entry of a link die. -/
def State.snapLink (s : State) (d : Nat) : List Byte :=
  let out := ((List.range s.label.variant.parts).map fun p => (s.part p).de.inflight.countP fun r => r.ld = some d).sum
  snapEntry 5 (0x40 + d) (dieUnit (0x40 + d) 0x30) false false
    [(out % 16384, 194), ((s.mem.waits.countP fun w => w.ld = some d && !w.inBuf) % 8192, 181),
     (((s.fab.vc0.filter fun q => q.port / 4 = d).map fun q => s.packetUnits q.pkt).sum % 2 ^ 19, 162),
     (if d = 0 then s.mem.freezeQ.length % 65536 else 0, 146), (if d = 0 then s.mem.touch.length % 32768 else 0, 131)]

/-- A RING entry of a session whose ring holds entries not yet sent. -/
def State.snapRing (_s : State) (x : Session) : List Byte :=
  snapEntry 6 0x40 0x33 false false
    [(x.slot, 193), (x.handle.toNat % 131072, 176), (x.sendNext + x.ready.length, 144), (x.sendNext, 112)]

/-- A snapshot: CAUSE 0 on a SNAPSHOT, 1 on the heartbeat loss of the silent die, whose entries the MC reads (R541). -/
def State.snapshot (s : State) (cause silent : Nat) : List Byte :=
  let v := s.label.variant
  let dies := (List.range v.parts).flatMap fun p =>
    let src : Bool := p = silent
    (allOwners.flatMap (s.snapOwner p src)) ++ engineCodes.flatMap (s.snapEngine p src) ++ s.snapDe p src
  let ports := (List.range v.ports).flatMap fun j => (List.range 4).flatMap (s.snapPort j)
  let links := (List.range v.linkDies).flatMap s.snapLink
  let rings := (s.sess.list.filter fun x => s.isOpenHere x && !x.ready.isEmpty).flatMap s.snapRing
  let es := dies ++ ports ++ links ++ rings
  recBytes 64 [(s.ftOr0.toNat, 448), (s.time.stroke.toNat, 400), (s.su.work.toNat, 352), (cause, 344), (silent, 336), (es.length / 32, 304),
    ((s.boot.plate.map fun p => p.header.domainId.toNat).getD 0, 288), (s.side.toNat, 287), (s.me.toNat, 277)] ++ es

/-- A SNAPSHOT message (R380, R541): by length, level and what the endpoint has outstanding. -/
def State.takeSnapshot (s : State) (num : Nat) (m : Msg) : State :=
  if !m.lenOk || m.len ≠ 0#16 || m.low ≠ 0#32 then s.sendError num m.type m.low 2
  else if s.sec.setup.obsLevel = 0#2 then s.sendError num m.type m.low 6
  else if ((s.ep num).bind (·.bulk)).isSome then s.sendError num m.type m.low 7
  else
    let n := s.time.stroke
    (s.modEp num fun e => { e with bulk := some ⟨0#24, n, none, [], 0, none⟩ }).queueBulk num 0#24 n (s.snapshot 0 0xFF)

/-- SNAPSHOT. -/
def execSnapshot (ep : BitVec 8) (m : Msg) (s : State) : Res := .next (onEp s ep.toNat fun s => s.takeSnapshot ep.toNat m)

/-! ## Dumps (R380, R539, R540) -/

/-- A tensor of the plate's symbol table. -/
def State.tensor (s : State) (id : Nat) : Option SymbolRec :=
  s.boot.plate.bind fun p => p.symbols.find? fun r => r.kind = 1#8 && r.id.toNat = id

/-- A DUMP message: by length, level, what the endpoint has outstanding, tensor (Table 14.9). -/
def State.takeDump (s : State) (num : Nat) (m : Msg) : State :=
  if !m.lenOk || m.len ≠ 12#16 || m.field 23 0 ≠ 0 || m.low ≠ 0#32 then s.sendError num m.type m.low 2
  else if s.sec.setup.obsLevel.toNat < 2 || s.traceEntry.isNone then s.sendError num m.type m.low 6
  else if ((s.ep num).bind (·.bulk)).isSome then s.sendError num m.type m.low 7
  else if (s.tensor (m.field 95 72)).isNone then s.sendError num m.type m.low 8
  else
    let t := BitVec.ofNat 24 (m.field 95 72)
    let n := BitVec.ofNat 48 (m.field 71 24)
    let s := s.modEp num fun e => { e with bulk := some ⟨t, n, none, [], 0, none⟩ }
    { s with obs := { s.obs with dumps := s.obs.dumps ++ [⟨BitVec.ofNat 8 num, t, n, none⟩] } }

/-- DUMP. -/
def execDump (ep : BitVec 8) (m : Msg) (s : State) : Res := .next (onEp s ep.toNat fun s => s.takeDump ep.toNat m)

/-- Does a tensor lie in job state: a range of the job or its header region holds its first granule (R443, R460)? -/
def State.inJobState (s : State) (r : SymbolRec) : Bool :=
  match s.boot.plate.bind fun p => p.tuning with
  | none => false
  | some t =>
    let a := r.addr.toNat
    (t.jobBase.toNat ≤ a && a < t.jobBase.toNat + 128 + 64 * t.groups.length) ||
      t.ranges.any fun g => g.addr.toNat ≤ a && a < g.addr.toNat + 128 * g.granules.toNat

/-- The bytes of one granule of a tensor as a dump copies it; those homed elsewhere come as a free value (notes/assumptions/60). None: the copy
fails (fenced data, or no such block). -/
def State.dumpGranule (s : State) (g : Nat) : Option (List Byte) :=
  let b := gaBlock (granuleAddr g)
  match s.homeOf b with
  | none => none
  | some h =>
    if h.1 ≠ s.me then some (leBytes 128 (Config.freeNat (s.free + g)))
    else if s.mem.fenced.contains b then none
    else match s.queued (granuleAddr g) with
      | some d => some (granuleBytes d)
      | none => some (s.mem.mem.readN (h.2 * blockBytes + gaInBlock (granuleAddr g)) 128)

/-- The numbers of a tensor's granules. -/
def SymbolRec.granules (r : SymbolRec) : List Nat := (List.range r.length.toNat).map fun i => gaGranule r.addr + i

/-- Does a granule lie here in a block that a partition reset holds (R471)? -/
def State.granuleHeld (s : State) (g : Nat) : Bool :=
  let b := gaBlock (granuleAddr g)
  (s.homeOf b).any fun h => h.1 = s.me && (s.mem.held.contains b || s.frameHeld h.2)

/-- The granules of a tensor, those captured before as they were; empty where one fails. -/
def State.dumpData (s : State) (r : SymbolRec) (kept : SMap (Option (List Byte))) : List Byte :=
  let gs := r.granules.map fun g => (SMap.find kept g).getD (s.dumpGranule g)
  if gs.all (·.isSome) then gs.flatMap fun g => g.getD [] else []

/-- The granules of a tensor that no reset holds, captured. -/
def State.dumpKeep (s : State) (r : SymbolRec) : SMap (Option (List Byte)) :=
  (r.granules.filter fun g => !s.granuleHeld g).map fun g => (g, s.dumpGranule g)

/-- A capture in the dump area at class 3, and on its way from there. -/
def State.sendDump (s : State) (d : DumpReq) (r : SymbolRec) (t : TraceEntry) (taken : Stroke) (kept : SMap (Option (List Byte))) : State :=
  let data := s.dumpData r kept
  let s := { s with free := s.free + gaGranule r.addr + r.length.toNat }
  (s.classWrite 3#2 t.dumpBase.toNat data).queueBulk d.ep.toNat d.tensor taken data

/-- May a dump take the stroke whose work has just completed: it is the one asked for or a later one, no catch-up stroke, and complete before its
due point; a tensor in job state only between a step's completion and the next release (R460)? -/
def State.mayTake (s : State) (d : DumpReq) (r : SymbolRec) : Bool :=
  let m := s.su.doneWork.toNat
  d.stroke.toNat ≤ m && !s.su.catchup && (s.su.doneAt.any fun t => t.toNat < s.dueAt m) &&
    (!s.inJobState r || s.job.phase ≠ .running)

/-- DUMP_CAPTURE (R540, R471): the first dump that waits takes the stroke m at C(m); its data pass through the dump area and are sent. Granules of held
blocks are copied once the hold is lifted, the others as of C(m). -/
def execDumpCapture (s : State) : Res :=
  .next (match s.obs.dumps with
    | [] => s
    | d :: rest =>
      let waiting := (((s.ep d.ep.toNat).bind (·.bulk)).map fun b => b.taken.isNone).getD false
      match s.tensor d.tensor.toNat, s.traceEntry with
      | some r, some t =>
        let held := r.granules.any s.granuleHeld
        if !waiting then s
        else match d.kept with
          | some k => if held then s else s.sendDump d r t k.1 k.2
          | none =>
            if !s.mayTake d r then s
            else if held then { s with obs := { s.obs with dumps := { d with kept := some (s.su.doneWork, s.dumpKeep r) } :: rest } }
            else s.sendDump d r t s.su.doneWork []
      | _, _ => s)

/-! ## The trace buffer and port (R532 to R538) -/

/-- The records of the dies' queues reach LD0. -/
def State.gatherTrace (s : State) : State :=
  match s.traceEntry with
  | none => s
  | some t =>
    (List.range s.label.variant.parts).foldl (fun s p =>
      let q := (s.part p).traceq
      q.foldl (fun s r => bufferTrace s t r) (s.modPart p fun x => { x with traceq := [] })) s

/-- TRACE_RECORD (R532): a die's record into its queue, one of the module's own units into the buffer. -/
def execTraceRecord (r : TraceRec) (s : State) : Res :=
  .next (if r.die.toNat < s.label.variant.parts then s.dieTrace r.die.toNat r else s.trace r)

/-- A SAMPLE record of a counter (Table 21.5). -/
def sampleRec (s : State) (k : CtrKey) : TraceRec :=
  { ft := s.ftOr0, stroke := s.time.stroke, kind := 6#8, die := BitVec.ofNat 8 k.die, engine := BitVec.ofNat 8 k.engine,
    layer := BitVec.ofNat 16 k.index, operator := 0xFFFF#16, payload := BitVec.ofNat 80 (k.id * 2 ^ 64 + s.reading k % 2 ^ 64) }

/-- TRACE_SAMPLE (R531): every SAMPLE_US, a SAMPLE for each set 0 counter, from the die it counts or from the module. -/
def execTraceSample (s : State) : Res :=
  .next (match s.traceEntry with
    | none => s
    | some t =>
      if t.sampleUs = 0#32 then s
      else s.set0.foldl (fun s k => let r := sampleRec s k; if k.die < s.label.variant.parts then s.dieTrace k.die r else s.trace r) s)

/-- A frame leaves the tracing port. -/
def State.sendFrame (s : State) (t : TraceEntry) (content : Nat) (recs : List TraceRec) (bytes : List Byte) : State :=
  let f : TraceFrame := { dest := t.destMac, content := content, domain := (s.boot.plate.map fun p => p.header.domainId).getD 0#16, side := s.side,
                          module := s.me, seq := s.obs.frameSeq, recs := recs, bytes := bytes }
  { s with obs := { s.obs with frameSeq := s.obs.frameSeq + 1#32 } }.emit (.traceFrame f)

/-- TRACE_FRAME_SEND (R536, R538, R542): one frame: a hang snapshot first, then stream records or the contents of a frozen window, oldest first, at
most 256 a frame; nothing while a window is armed or the link is down. -/
def execTraceFrameSend (s : State) : Res :=
  .next (match s.traceEntry with
    | none => s
    | some t =>
      let s := s.gatherTrace
      if !s.obs.linkUp then s
      else if !s.obs.hang.isEmpty then
        ({ s with obs := { s.obs with hang := s.obs.hang.drop 8192 } }).sendFrame t 2 [] (s.obs.hang.take 8192)
      else if s.obs.trace.isEmpty || (t.mode && !s.obs.frozen) then s
      else ({ s with obs := { s.obs with trace := s.obs.trace.drop 256 } }).sendFrame t (if t.mode then 1 else 0) (s.obs.trace.take 256) [])

/-- TRACE_WINDOW_FREEZE (R538): after POST_COUNT further records the ring freezes. -/
def execTraceWindowFreeze (s : State) : Res :=
  .next (match s.traceEntry, s.gatherTrace.obs.post with
    | some t, some 0 => if t.mode then { s.gatherTrace with obs := { s.gatherTrace.obs with frozen := true } } else s
    | _, _ => s)

/-- TRACE_WINDOW_REARM (R538): the last frozen record is sent; with REARM set the ring is armed again, with a GAP for what was lost. -/
def execTraceWindowRearm (s : State) : Res :=
  .next (match s.traceEntry with
    | none => s
    | some t =>
      if t.mode && t.rearm && s.obs.frozen && s.obs.trace.isEmpty then
        let gap := match s.obs.gap with
          | some g => [gapRec s g.1 g.2 0x40#8]
          | none => []
        { s with obs := { s.obs with frozen := false, post := none, gap := none, trace := gap } }
      else s)

/-- ALARM (R529). -/
def execAlarm (n : Notice) (s : State) : Res := .next (s.alarm n)
/-- EVENT (R529). -/
def execEvent (n : Notice) (s : State) : Res := .next (s.event n)

/-! ## Ethernet links -/

/-- HOST_PORT_LINK_CHANGE (R381): without link tokens are held under exclusion 0x8; at link return what is ready is sent. -/
def execHostPortLinkChange (up : Bool) (s : State) : Res :=
  let up := up && s.portsOpen
  let s1 : State := { s with trans := { s.trans with linkUp := up } }
  .next (if up then
      (s.sess.list.filter s.isOpenHere).foldl (fun s x =>
        match s.session x.key with
        | some y => if y.suspended.isNone then s.sendTokens y else s
        | none => s) (s1.endExcl 8 none)
    else s1.beginExcl 8 none)

/-- TRACING_PORT_LINK_CHANGE (R537): at levels 0 to 2 the port holds its link down (R517). -/
def execTracingPortLinkChange (up : Bool) (s : State) : Res :=
  .next { s with obs := { s.obs with linkUp := up && s.sec.setup.obsLevel = 3#2 } }

end Sys2Proof.Machine
end

