-- ==== Sys2Proof/Machine/Transport.lean ====
section
/-! DEFINITION. Transport.lean: the host port and AST: frames, handshakes, sealed packets, acknowledgement and retransmission, messages
(spec/14_request_transport.md). -/
namespace Sys2Proof
open Machine

/-! ## The bodies of handshake packets (Tables 14.4, 14.5) -/

/-- The 4,200 bytes of a HELLO_C body. -/
def HelloC.body (h : HelloC) : List Byte :=
  leBytes 2 h.pace.toNat ++ leBytes 1 h.replace.toNat ++ leBytes 5 h.rsvd.toNat ++ leBytes 32 h.nonce.toNat ++ leBytes 1568 h.ekey.toNat ++
    leBytes 2592 h.pubKey.toNat

/-- Bytes 0 to 4,215 of a HELLO_D body: all but its signature. -/
def HelloD.body (h : HelloD) : List Byte :=
  leBytes 2 h.endpoint.toNat ++ leBytes 2 h.twinPort.toNat ++ leBytes 4 h.twin4.toNat ++ leBytes 16 h.twin6.toNat ++ leBytes 32 h.nonce.toNat ++
    leBytes 1568 h.ctext.toNat ++ leBytes 2592 h.pubKey.toNat

/-- TH of a handshake (R356). -/
def handshakeHash (c : HelloC) (d : HelloD) : BitVec 512 := Config.sha3 (c.body ++ d.body)

/-- What the device signs. -/
def deviceBytes (th : BitVec 512) : List Byte := signBytes "AST1 device" th

/-- What the client signs: TH with the device signature. -/
def clientBytes' (th : BitVec 512) (sig : BitVec 37016) : List Byte :=
  signBytes "AST1 client" (Config.sha3 (leBytes 64 th.toNat ++ leBytes 4627 sig.toNat))

/-- The two keys of an endpoint, client to device and device to client (R356). -/
def endpointKeys (ss : BitVec 256) (th : BitVec 512) : BitVec 256 × BitVec 256 :=
  let km := (Config.sha3 (leBytes 32 ss.toNat ++ leBytes 64 th.toNat)).toNat
  (BitVec.ofNat 256 km, BitVec.ofNat 256 (km / 2 ^ 256))

/-- The header of a handshake packet. -/
def handshakeHdr (ptype : Nat) (number : BitVec 8) (conn : BitVec 32) (len : Nat) : AstHdr :=
  { version := 1#8, ptype := BitVec.ofNat 4 ptype, ackReq := false, resume := false, endpoint := number, conn := conn, seq := 0#64, ack := 0#64,
    low := 0#64, sack := 0#64, len := BitVec.ofNat 16 len, window := 0#16, rsvd := 0#42 }

end Sys2Proof

namespace Sys2Proof.Machine

/-! ## Frames (R346, R347) -/

/-- A frame or packet discarded without a response, and counted (0x0061). -/
def State.discard (s : State) : State := s.count (modCtr 0x0061 0)

/-- Does a frame's tagging suit the plate's VLAN? -/
def HostPortRec.vlanOk (h : HostPortRec) (tags : List (BitVec 12)) : Bool :=
  match tags with
  | [] => true
  | [v] => h.vlan ≠ 0#12 && v = h.vlan
  | _ => false

/-- UDP ports of PTP (R31). -/
def isPtpPort (p : BitVec 16) : Bool := p = 319#16 || p = 320#16

/-- An IP body at one of the module's addresses. -/
def State.ipBody (s : State) (h : HostPortRec) (b : IpBody) : State :=
  match b with
  | .udp port ok => if ok && (port = h.astPort || isPtpPort port) then s else s.discard
  | .echoRequest => if h.echo then s.emit .echoReply else s.discard
  | .solicit _ | .other => s.discard

/-- Is a frame one for this module: unicast to it, or a broadcast or multicast of a protocol it answers? Counts of other frames are not kept
(Table 20.9). -/
def forUs (f : EthFrame) (h : HostPortRec) : Bool :=
  match f.body with
  | .arp t => t = h.ipv4 && h.ipv4 ≠ 0#32
  | .ipv6 _ _ _ (.solicit t) => t = h.ipv6 && h.ipv6 ≠ 0#128
  | .ptp => true
  | _ => f.toUs

/-- ETHERNET_FRAME (R347): a frame for this module is counted; it is accepted, answered, or discarded and counted. -/
def execEthernetFrame (f : EthFrame) (s : State) : Res :=
  .next (match s.hostport with
    | none => s
    | some h =>
      if !s.trans.linkUp || !h.vlanOk f.vlan || !forUs f h then s
      else
        let s := s.count (modCtr 0x0060 0)
        match f.body with
        | .ptp => s
        | .arp _ => s.emit .arpReply
        | .ipv4 dst frag opts b => if dst = h.ipv4 && h.ipv4 ≠ 0#32 && !frag && !opts then s.ipBody h b else s.discard
        | .ipv6 dst frag ext b =>
          match b with
          | .solicit _ => s.emit .ndReply
          | _ => if dst = h.ipv6 && h.ipv6 ≠ 0#128 && !frag && !ext then s.ipBody h b else s.discard
        | .pause | .other => s.discard)

/-! ## Handshakes (R354 to R359) -/

/-- A HELLO_C answered with REJECT (R357). -/
def State.rejectWith (s : State) (conn : BitVec 32) (reason : Nat) (dst : NetAddr) : State := s.emit (.reject conn (BitVec.ofNat 8 reason) dst)

/-- The handshake in progress of a CONN and source address. -/
def State.handshake (s : State) (conn : BitVec 32) (src : NetAddr) : Option Handshake :=
  s.trans.handshakes.find? fun k => k.conn = conn && k.src = src

/-- A handshake forgotten, with the endpoint number it reserved. -/
def State.dropHandshake (s : State) (k : Handshake) : State := { s with trans := { s.trans with handshakes := s.trans.handshakes.erase k } }

/-- Own endpoint numbers neither live nor reserved. -/
def State.freeNumbers (s : State) : List Nat :=
  (List.range 64).filter fun n => (s.ep n).isNone && !s.trans.handshakes.any fun k => k.number = n

/-- The HELLO_C checks after VERSION, in order: MALFORMED, BUSY, FULL (R358). DESIGN CHOICE (notes/assumptions/70): nonzero reserved bytes are MALFORMED,
as Table 14.6 says, although R9 lets a receiver ignore them. -/
def State.helloFault (s : State) (h : HelloC) : Option Nat :=
  if h.bodyLen ≠ 4200 || h.rsvd ≠ 0#40 || h.pace = 0#16 || 16000 < h.pace.toNat || (h.replace ≠ 0xFF#8 && 64 ≤ h.replace.toNat) then some 7
  else if 16 ≤ s.trans.handshakes.length then some 3
  else if h.replace = 0xFF#8 && s.freeNumbers.isEmpty then some 2
  else none

/-- HELLO_D for a HELLO_C that passed its checks. A new endpoint takes the lowest free number (notes/assumptions/41). -/
def State.answerHello (s : State) (h : HelloC) : State :=
  let number := if h.replace = 0xFF#8 then (s.freeNumbers.head?).getD 0 else h.replace.toNat
  let twin := if s.twinned then s.boot.plate.bind fun p => p.hostports.find? fun r => r.module = s.me && r.side ≠ s.side else none
  let kem := Config.mlkemEncaps h.ekey s.free
  let d0 : HelloD :=
    { hdr := handshakeHdr 2 (BitVec.ofNat 8 number) h.hdr.conn 8843, endpoint := BitVec.ofNat 8 number, twinPort := (twin.map (·.astPort)).getD 0#16,
      twin4 := (twin.map (·.ipv4)).getD 0#32, twin6 := (twin.map (·.ipv6)).getD 0#128, nonce := Config.random256 (s.free + 1), ctext := kem.1,
      pubKey := Config.idPubKey s.label.identity, sig := 0#37016, src := h.src }
  let th := handshakeHash h d0
  let d := { d0 with sig := Config.mldsaSign s.label.identity (deviceBytes th) }
  let k : Handshake := { conn := h.hdr.conn, number := number, pace := h.pace.toNat, replace := h.replace, pubKey := h.pubKey, src := h.src,
                         secret := kem.2, th := th, sig := d.sig, hello := d, at_ := s.time.mono }
  ({ s with free := s.free + 2, trans := { s.trans with handshakes := s.trans.handshakes ++ [k] } }).emit (.hello d)

/-- HELLO_C (R358). A repeated one is answered with the same HELLO_D. -/
def execHelloC (h : HelloC) (s : State) : Res :=
  .next (if !s.trans.linkUp || !s.trans.accepting then s
    else if h.hdr.version ≠ 1#8 then s.rejectWith h.hdr.conn 1 h.src
    else if h.hdr.rsvd ≠ 0#42 then s.discard
    else match s.handshake h.hdr.conn h.src with
      | some k => s.emit (.hello k.hello)
      | none =>
        match s.helloFault h with
        | some r => s.rejectWith h.hdr.conn r h.src
        | none => s.answerHello h)

/-- The first reason to reject a FINISH, in the order of R358. -/
def State.finishFault (s : State) (k : Handshake) (f : Finish) : Option Nat :=
  let id := Config.sha3 (leBytes 2592 k.pubKey.toNat)
  if f.bodyLen ≠ 4627 then some 7
  else if !Config.mldsaVerify k.pubKey (clientBytes' k.th k.sig) f.sig then some 5
  else if !s.sec.clients.contains id then some 4
  else if k.replace ≠ 0xFF#8 && ((s.ep k.number).map (·.client)) ≠ some id then some 6
  else none

/-- An endpoint made live by a handshake; of one that it replaces, the OPENs awaiting decision pass on (R359, R381). -/
def Handshake.endpoint (k : Handshake) (old : Option Endpoint) (now : Word64) : Endpoint :=
  let keys := endpointKeys k.secret k.th
  { client := Config.sha3 (leBytes 2592 k.pubKey.toNat), th := k.th, keyIn := keys.1, keyOut := keys.2, conn := k.conn, addr := k.src, pace := k.pace,
    rxPoint := 0, rxHeld := [], txNext := 1, unacked := [], pacedq := [], srtt := none, rttvar := 0, bucket := 65536, bucketAt := now, window := 0,
    retrans := 0, abandoned := 0, opens := (old.map (·.opens)).getD [], bulk := none, ackDue := none, resume := false }

/-- Dumps of an endpoint that is no more. -/
def State.dropDumps (s : State) (num : Nat) : State :=
  { s with obs := { s.obs with dumps := s.obs.dumps.filter fun d => d.ep.toNat ≠ num } }

/-- The endpoint of an accepted FINISH; sessions restored from the shared store attach to the first endpoint of their client (R442). -/
def State.establish (s : State) (k : Handshake) : State :=
  let old := s.ep k.number
  let e := k.endpoint old s.time.mono
  let s := (s.count (modCtr 0x0063 0) ((old.map fun o => o.unacked.length).getD 0)).dropDumps k.number
  let s := (s.dropHandshake k).mapSessions fun x =>
    if x.port = s.me && x.ep = 0xFF#8 && x.valid.isNone && x.client = e.client then { x with ep := BitVec.ofNat 8 k.number } else x
  { s with trans := { s.trans with eps := SMap.insert s.trans.eps k.number e } }.sendAck k.number

/-- FINISH (R356): an accepted one makes the endpoint live, and the device sends an ACK with SEQ 1. -/
def execFinish (f : Finish) (s : State) : Res :=
  .next (if !s.trans.linkUp then s
    else match s.handshake f.hdr.conn f.src with
      | none => s.discard
      | some k =>
        if f.hdr.version ≠ 1#8 || f.hdr.rsvd ≠ 0#42 || f.hdr.endpoint.toNat ≠ k.number then s.discard
        else match s.finishFault k f with
          | some r => (s.dropHandshake k).rejectWith k.conn r k.src
          | none => s.establish k)

/-- HANDSHAKE_TIMEOUT (R355): no FINISH within 1 s of HELLO_D. -/
def execHandshakeTimeout (conn : BitVec 32) (s : State) : Res :=
  .next { s with trans := { s.trans with
    handshakes := s.trans.handshakes.filter fun k => !(k.conn = conn && k.at_.toNat + 1000000000 ≤ s.time.mono.toNat) } }

/-! ## OPEN, PROMPT, CLOSE (R370 to R376) -/

/-- An open session of an endpoint by its handle. -/
def State.epSession (s : State) (num : Nat) (h : BitVec 32) : Option Session :=
  (s.session ⟨s.me, h⟩).filter fun x => s.isOpenHere x && x.ep.toNat = num

/-- Tokens of 4 B in a byte string. -/
def tokensOf (bs : List Byte) : List Word32 := (chunksOf 4 (bs.length / 4) bs).map fun b => BitVec.ofNat 32 (leNat b)

/-- The terms of an OPEN body (Table 14.10). -/
def openTerms (m : Msg) : OpenTerms :=
  { seed := BitVec.ofNat 64 (m.field 255 192), prompt := BitVec.ofNat 32 (m.field 191 160), output := BitVec.ofNat 32 (m.field 159 128),
    ttft := BitVec.ofNat 16 (m.field 127 112), cadence := BitVec.ofNat 8 (m.field 111 104), grace := BitVec.ofNat 8 (m.field 103 96),
    cclass := BitVec.ofNat 8 (m.field 95 88) }

/-- REFUSE body (Table 14.11). -/
def refuseBody (r : RefuseInfo) : List Byte :=
  leBytes 16 (r.code.toNat * 2 ^ 120 + r.resource.toNat * 2 ^ 112 + r.lead.toNat * 2 ^ 102 + r.earliest.toNat * 2 ^ 48 + r.admAt.toNat)

/-- ACCEPT body (Table 14.11). -/
def acceptBody (g : Grant) : List Byte :=
  leBytes 32 (g.handle.toNat * 2 ^ 224 + g.admAt.toNat * 2 ^ 176 + g.first.toNat * 2 ^ 128 + g.chunk.toNat * 2 ^ 112 + g.shift.toNat * 2 ^ 104 +
    g.pageLog2.toNat * 2 ^ 100)

/-- The stroke that stands for none in EARLIEST. -/
def noStroke : Stroke := 0xFFFFFFFFFFFF#48

/-- Has an OPEN body a wrong LEN, or a reserved field that is not zero (Table 14.9, LENGTH)? DESIGN CHOICE (notes/assumptions/70): R9 says that reserved
fields of received messages are ignored; the rejecting rule is taken. -/
def openBad (m : Msg) : Bool := !m.lenOk || m.len.toNat < 32 || m.len.toNat ≠ 32 + 4 * m.field 63 32 || m.field 87 64 ≠ 0 || m.field 31 0 ≠ 0

/-- OPEN (R370): forwarded to the manager under R336; a module held after a failed start refuses it itself (R413). -/
def State.openMessage (s : State) (num : Nat) (m : Msg) : State :=
  let t := openTerms m
  if openBad m then s.sendError num m.type m.low 2
  else if t.prompt.toNat < m.field 63 32 then s.sendError num m.type m.low 5
  else if (s.ep num).any (fun e => 64 ≤ e.opens.length) then s.sendError num m.type m.low 0x0A
  else if s.boot.standing = .heldVisible then
    s.sendMsg num (mkMsg 3 m.low (refuseBody ⟨7#8, 0#8, 0#10, noStroke, s.time.stroke⟩))
  else
    let f : FwdOpen := ⟨s.me, BitVec.ofNat 8 num, m.low, t⟩
    (s.modEp num fun e => { e with opens := e.opens ++ [⟨f, tokensOf (m.body.drop 32)⟩] }).send s.ae.manager (.openFwd f)

/-- OPEN. -/
def execOpenMsg (ep : BitVec 8) (m : Msg) (s : State) : Res := .next (onEp s ep.toNat fun s => s.openMessage ep.toNat m)

/-- A session as an acceptance makes it. -/
def State.sessionOf (s : State) (f : FwdOpen) (g : Grant) (client : BitVec 512) (inst : BitVec 16) : Session :=
  { handle := g.handle, client := client, port := f.port, ep := f.ep, terms := f.terms, inst := inst, admAt := g.admAt, first := g.first,
    chunk := g.chunk, pageLog2 := g.pageLog2, frames := g.frames, area := g.area, areaLen := g.areaLen, order := s.sess.nextOrd, rcvd := 0,
    commitEnd := 0, pageCount := 0, outNext := 0, sendNext := 0, held := [], ring := [], breaches := 0, shifts := 0, lastRow := 0#48, marks := [],
    proofRec := none, history := [], resumes := [], replay := none, suspended := none, incomplete := [], held2 := false, endAt := none,
    closing := none, valid := none }

/-- A session known from now on. -/
def State.addSession (s : State) (x : Session) : State :=
  ({ s with sess := { s.sess with list := s.sess.list ++ [x], nextOrd := s.sess.nextOrd + 1 } }).noteOpen

/-- Tokens written to a session's prompt buffer behind those received (R372). -/
def State.takePrompt (s : State) (h : SessKey) (ts : List Word32) : State :=
  match s.session h with
  | none => s
  | some x =>
    let s := s.sysWrite ((s.areaOf x).prompt + 4 * x.rcvd) (ts.flatMap fun t => leBytes 4 t.toNat)
    s.modSession h fun x => { x with rcvd := x.rcvd + ts.length }

/-- The structures written at admission: page list (R190), KV header (R192), empty sketch slab headers (Table 8.5). -/
def State.writeStructures (s : State) (x : Session) : State :=
  match s.geomOf x with
  | none => s
  | some g =>
    let a := g.area (x.area.toNat * blockBytes)
    let s := s.sysWrite a.pageList (x.frames.flatMap fun f => leBytes 4 f.toNat)
    let s := s.sysWrite a.staging (recBytes 128 [(a.sketch, 72), (g.kv.alloc, 32), (g.cs, 0)])
    (List.range (g.kv.layers * g.kv.heads)).foldl (fun s i => s.sysWrite (a.sketch + i * g.kv.sketchBytes) (List.replicate 128 0#8)) s

/-- An acceptance at the port module: the session with its structures and inline tokens, and ACCEPT (R370, R371). -/
def State.acceptHere (s : State) (w : WaitingOpen) (g : Grant) (inst : BitVec 16) : State :=
  let num := w.req.ep.toNat
  let x := s.sessionOf w.req g (((s.ep num).map (·.client)).getD 0#512) inst
  let s := ((s.addSession x).writeStructures x).takePrompt x.key w.tokens
  (s.sendMsg num (mkMsg 2 w.req.tag (acceptBody g))).count (modCtr 0x0011 0)

/-- DECISION_RECEIVE (R371): ACCEPT or REFUSE goes out at once, once per tag; the other modules of the instance learn of the session. -/
def execDecisionReceive (d : DecisionRec) (s : State) : Res :=
  let num := d.req.ep.toNat
  let inst := ((s.cclass d.req.terms.cclass).map (·.inst)).getD 0xFFFF#16
  .next (if d.req.port = s.me then
      match (s.ep num).bind fun e => e.opens.find? fun w => w.req.tag = d.req.tag && w.req.terms = d.req.terms with
      | none => s
      | some w =>
        let s := s.modEp num fun e => { e with opens := e.opens.erase w }
        match d.dec with
        | .accept g => s.acceptHere w g inst
        | .refuse r => (s.sendMsg num (mkMsg 3 d.req.tag (refuseBody r))).count (modCtr 0x0012 0)
    else
      match d.dec with
      | .accept g =>
        if (s.session ⟨d.req.port, g.handle⟩).isNone && (s.instModules inst).contains s.me then s.addSession (s.sessionOf d.req g 0#512 inst) else s
      | .refuse _ => s)

/-- PROMPT (R372). -/
def State.promptMessage (s : State) (num : Nat) (m : Msg) : State :=
  let n := m.field 31 0
  if !m.lenOk || m.len.toNat < 8 || m.len.toNat ≠ 8 + 4 * n then s.sendError num m.type m.low 2
  else match s.epSession num m.low with
    | none => s.sendError num m.type m.low 3
    | some x =>
      if m.field 63 32 ≠ x.rcvd then s.sendError num m.type m.low 4
      else if x.terms.prompt.toNat < x.rcvd + n then s.sendError num m.type m.low 5
      else s.takePrompt x.key (tokensOf (m.body.drop 8))

/-- PROMPT. -/
def execPrompt (ep : BitVec 8) (m : Msg) (s : State) : Res := .next (onEp s ep.toNat fun s => s.promptMessage ep.toNat m)

/-- CLOSE (R376, Table of R381): what was acknowledged before it is sent, then the session closes. -/
def State.closeMessage (s : State) (num : Nat) (m : Msg) : State :=
  if !m.lenOk || m.len ≠ 0#16 then s.sendError num m.type m.low 2
  else match s.epSession num m.low with
    | none => s.sendError num m.type m.low 3
    | some x =>
      let s := if s.trans.linkUp && x.suspended.isNone then s.sendTokens x else s
      s.closeSession x.key 1 0

/-- CLOSE. -/
def execClose (ep : BitVec 8) (m : Msg) (s : State) : Res := .next (onEp s ep.toNat fun s => s.closeMessage ep.toNat m)

/-! ## Queries (R378) -/

/-- Has a QUERY a wrong LEN, or a reserved field that is not zero? DESIGN CHOICE (notes/assumptions/70), against R9, as in `openBad`. -/
def queryBad (m : Msg) : Bool := !m.lenOk || m.len ≠ 8#16 || m.field 55 32 ≠ 0

/-- A REPLY. -/
def State.reply (s : State) (num : Nat) (m : Msg) (v : Nat) : State := s.paceMsg num (mkMsg 9 m.low (leBytes 32 v))

/-- State of a session in a REPLY. -/
def Session.queryState (x : Session) : Nat :=
  if x.suspended.isSome || x.replay.isSome then 3
  else if x.rcvd < x.terms.prompt.toNat then 0
  else if x.commitEnd < x.terms.prompt.toNat then 1 else 2

/-- KIND 0, STATUS. -/
def State.queryStatus (s : State) (num : Nat) (m : Msg) : State :=
  if queryBad m then s.sendError num m.type m.low 2
  else match s.epSession num m.low with
    | none => s.sendError num m.type m.low 3
    | some x =>
      s.reply num m (x.queryState * 2 ^ 248 + x.rcvd * 2 ^ 216 + x.sendNext * 2 ^ 184 + x.due x.sendNext * 2 ^ 136 + x.first.toNat * 2 ^ 88 +
        x.breaches * 2 ^ 56 + x.shifts * 2 ^ 48 + s.time.stroke.toNat)

/-- The sent outputs of a session still in its ring, by index. -/
def Session.sent (x : Session) : List RingEntry :=
  ((x.ring.map (·.2)).filter fun e => e.outIndex.toNat < x.sendNext).insertionSort fun a b => a.outIndex.toNat ≤ b.outIndex.toNat

/-- KIND 1, RESEND. -/
def State.queryResend (s : State) (num : Nat) (m : Msg) : State :=
  if queryBad m then s.sendError num m.type m.low 2
  else match s.epSession num m.low with
    | none => s.sendError num m.type m.low 3
    | some x =>
      let lo := m.field 31 0
      if x.sendNext ≤ lo then s
      else match x.sent with
        | [] => s.sendError num m.type m.low 9
        | e :: _ =>
          if lo < e.outIndex.toNat then s.sendError num m.type m.low 9
          else s.paceMsg num (mkMsg 5 x.handle (tokensBody ((x.sent.filter fun e => lo ≤ e.outIndex.toNat).map fun e => { e with resent := true })))

/-- KIND 2, ENDPOINT. -/
def State.queryEndpoint (s : State) (num : Nat) (m : Msg) : State :=
  if queryBad m || m.low ≠ 0#32 then s.sendError num m.type m.low 2
  else match s.ep num with
    | none => s
    | some e =>
      s.reply num m ((e.srtt.getD 0) * 2 ^ 192 + e.retrans * 2 ^ 128 + e.abandoned * 2 ^ 64 + s.openOf num * 2 ^ 32 + e.opens.length)

/-- QUERY of any KIND. -/
def State.query (s : State) (num : Nat) (m : Msg) : State :=
  match m.field 63 56 with
  | 0 => s.queryStatus num m
  | 1 => s.queryResend num m
  | 2 => s.queryEndpoint num m
  | _ => s.sendError num m.type m.low 2

/-- QUERY_STATUS. -/
def execQueryStatus (ep : BitVec 8) (m : Msg) (s : State) : Res := .next (onEp s ep.toNat fun s => s.queryStatus ep.toNat m)
/-- QUERY_RESEND. -/
def execQueryResend (ep : BitVec 8) (m : Msg) (s : State) : Res := .next (onEp s ep.toNat fun s => s.queryResend ep.toNat m)
/-- QUERY_ENDPOINT. -/
def execQueryEndpoint (ep : BitVec 8) (m : Msg) (s : State) : Res := .next (onEp s ep.toNat fun s => s.queryEndpoint ep.toNat m)

/-- RESERVED_MESSAGE_TYPE (R368): a reserved or device-to-client TYPE, and the store's message types (R432). -/
def execReservedMessageType (ep : BitVec 8) (m : Msg) (s : State) : Res := .next (onEp s ep.toNat fun s => s.sendError ep.toNat m.type m.low 1)

/-- A message acted on (Table 14.8). -/
def State.message (num : Nat) (s : State) (m : Msg) : State :=
  match m.type.toNat with
  | 0x01 => s.openMessage num m
  | 0x04 => s.promptMessage num m
  | 0x06 => s.closeMessage num m
  | 0x08 => s.query num m
  | 0x0A => s.observe num m
  | 0x0C => s.takeDump num m
  | 0x0D => s.takeSnapshot num m
  | _ => s.sendError num m.type m.low 1

/-! ## Acknowledgements and round-trip time (R362 to R364) -/

/-- A round-trip measurement with the gains of RFC 6298. -/
def Endpoint.measure (e : Endpoint) (r : Nat) : Endpoint :=
  match e.srtt with
  | none => { e with srtt := some r, rttvar := r / 2 }
  | some t =>
    let d := if t ≤ r then r - t else t - r
    { e with rttvar := (3 * e.rttvar + d) / 4, srtt := some ((7 * t + r) / 8) }

/-- Does a header acknowledge a SEQ: at or below its in-order point, or by SACK? -/
def acks (h : AstHdr) (seq : Nat) : Bool :=
  seq ≤ h.ack.toNat || (h.ack.toNat + 2 ≤ seq && seq < h.ack.toNat + 66 && h.sack.getLsbD (seq - h.ack.toNat - 2))

/-- The acknowledgements of a header: packets sent once that it newly acknowledges give measurements, those up to its in-order point leave the
transmit share, others are marked. -/
def Endpoint.takeAcks (e : Endpoint) (h : AstHdr) (now : Word64) : Endpoint :=
  let fresh := e.unacked.filter fun p => !p.sacked && p.sends = 1 && acks h p.seq
  let e := fresh.foldl (fun e p => e.measure (now.toNat - p.sentAt.toNat)) e
  { e with unacked := (e.unacked.filter fun p => h.ack.toNat < p.seq).map fun p => { p with sacked := p.sacked || acks h p.seq } }

/-- A capture whose last chunk is acknowledged is no longer outstanding, and its dump area is free (R380, R540). -/
def State.freeBulk (s : State) (num : Nat) (h : AstHdr) : State :=
  match (s.ep num).bind (·.bulk) with
  | none => s
  | some b =>
    match b.lastSeq with
    | some n =>
      if acks h n then
        let s := s.modEp num fun e => { e with bulk := none }
        if b.tensor = 0#24 then s else s.dropDumps num
      else s
    | none => s

/-- The in-order point after LOW: nothing below LOW is waited for (R362). -/
def Endpoint.takeLow (e : Endpoint) (low : Nat) : Endpoint :=
  { e with rxPoint := max e.rxPoint (low - 1) }

/-- What a verified header changes: address, window, acknowledgements, LOW (R353, R361, R362, R364). -/
def State.takeHeader (s : State) (num : Nat) (p : AstPkt) : State :=
  (s.modEp num fun e =>
    (({ e with addr := p.src, window := p.hdr.window.toNat * 64 }).takeAcks p.hdr s.time.mono)).freeBulk num p.hdr

/-! ## Sealed packets (R352, R353, R362, R383) -/

/-- Does a packet verify: version, reserved fields, CONN, body, tag (R353)? DESIGN CHOICE (notes/assumptions/70), against R9, as in `openBad`. -/
def Endpoint.verifies (e : Endpoint) (p : AstPkt) : Bool :=
  p.hdr.version = 1#8 && p.hdr.rsvd = 0#42 && p.hdr.conn = e.conn && p.hdr.len.toNat = (p.msgs.flatMap msgBytes).length &&
    p.tag = astTag e.keyIn 0 p.hdr p.msgs

/-- A BYE in its turn (R359): the endpoint ends when no session of it is open, else ERROR 0x0B. -/
def State.takeBye (s : State) (num : Nat) : State :=
  if s.openOf num = 0 then
    let t : State := s.dropDumps num
    { t with trans := { t.trans with eps := SMap.erase t.trans.eps num } }
  else s.sendError num 0#8 0#32 0x0B

/-- A packet in its turn. -/
def State.process (s : State) (num : Nat) (p : AstPkt) : State :=
  if p.hdr.ptype = 7#4 then s.takeBye num else p.msgs.foldl (State.message num) s

/-- Packets held, processed strictly in SEQ order as far as every one before them has been received or lies below LOW (R362). -/
def State.inSequence (num : Nat) : Nat → State → State
  | 0, s => s
  | n + 1, s =>
    match s.ep num with
    | none => s
    | some e =>
      match e.rxHeld with
      | [] => s
      | p :: rest =>
        if e.rxPoint + 1 < p.hdr.seq.toNat then s
        else
          let s := s.modEp num fun e => { e with rxPoint := max e.rxPoint p.hdr.seq.toNat, rxHeld := rest }
          inSequence num n (s.process num p)

/-- The acknowledgement of a packet: an ACK at once for ACK_REQ, else within 50 µs for DATA (R363). -/
def State.acknowledge (s : State) (num : Nat) (p : AstPkt) : State :=
  if p.hdr.ackReq then s.sendAck num
  else if p.hdr.ptype = 5#4 then s.modEp num fun e => { e with ackDue := some (e.ackDue.getD s.time.mono) }
  else s

/-- A verified packet in the sequence of its direction. -/
def State.sequence (s : State) (num : Nat) (p : AstPkt) : State :=
  match s.ep num with
  | none => s
  | some e0 =>
    let e := e0.takeLow p.hdr.low.toNat
    let s := s.modEp num fun _ => e
    let n := p.hdr.seq.toNat
    if e.rxPoint + 65 < n then s.inSequence num 66
    else if n ≤ e.rxPoint || e.rxHeld.any fun q => q.hdr.seq = p.hdr.seq then (s.acknowledge num p).inSequence num 66
    else ((s.modEp num fun e => { e with rxHeld := e.rxHeld.orderedInsert (fun a b => a.hdr.seq.toNat ≤ b.hdr.seq.toNat) p }).acknowledge num p).inSequence num 66

/-- An unacknowledged packet sent again, if the pacer and the window allow it (R366); the same bytes, to the current address. -/
def State.resend (s : State) (num seq : Nat) : State :=
  match s.ep num with
  | none => s
  | some e =>
    match e.unacked.find? fun q => q.seq = seq with
    | none => s
    | some q =>
      if e.mayPace s.time.mono.toNat q.bytes q.bytes then
        let q' := { q with sends := q.sends + 1, sentAt := s.time.mono, rto := 2 * q.rto, due := false }
        let s := (s.modEp num fun e =>
          { e.pay s.time.mono q.bytes with retrans := e.retrans + 1, unacked := e.unacked.map fun x => if x.seq = seq then q' else x }).count
            (modCtr 0x0062 0)
        s.emitAst { q.pkt with src := e.addr }
      else s.modEp num fun e => { e with unacked := e.unacked.map fun x => if x.seq = seq then { x with due := true } else x }

/-- A RESUME packet: the in-order point moves to just before it, and everything sent after its ACK is sent again (R383), but no packet a ninth time
(R364). -/
def State.takeResume (s : State) (num : Nat) (p : AstPkt) : State :=
  let s := s.modEp num fun e => { e with rxPoint := p.hdr.seq.toNat - 1, rxHeld := [], unacked := e.unacked.map fun q => { q with sacked := false } }
  ((s.ep num).map fun e => (e.unacked.filter fun q => q.sends < 8).map (·.seq)).getD [] |>.foldl (fun s n => s.resend num n) s

/-- A sealed packet of a type received (R353, R361): discarded and counted, or taken. -/
def State.receiveAst (s : State) (ptype : Nat) (p : AstPkt) : State :=
  let num := p.hdr.endpoint.toNat
  if !s.trans.linkUp then s
  else match s.ep num with
    | none => s.discard
    | some e =>
      if p.hdr.ptype.toNat ≠ ptype || (ptype ≠ 5 && !p.msgs.isEmpty) || !e.verifies p then s.discard
      else if 131072 < e.heldBytes + p.hdr.len.toNat then s.discard
      else
        let s := s.takeHeader num p
        let s := if p.hdr.resume then s.takeResume num p else s
        s.sequence num p

/-- DATA. -/
def execData (p : AstPkt) (s : State) : Res := .next (s.receiveAst 5 p)
/-- ACK. -/
def execAck (p : AstPkt) (s : State) : Res := .next (s.receiveAst 6 p)
/-- BYE. -/
def execBye (p : AstPkt) (s : State) : Res := .next (s.receiveAst 7 p)
/-- RESUME_PACKET (R383): a sealed packet that carries RESUME. -/
def execResumePacket (p : AstPkt) (s : State) : Res := .next (if p.hdr.resume then s.receiveAst p.hdr.ptype.toNat p else s)
/-- RESERVED_AST_PACKET (R351). -/
def execReservedAstPacket (_h : AstHdr) (s : State) : Res := .next (if s.trans.linkUp then s.discard else s)

/-- ACK_DELAY (R363). -/
def execAckDelay (ep : BitVec 8) (s : State) : Res :=
  .next (if ((s.ep ep.toNat).bind (·.ackDue)).isSome then s.sendAck ep.toNat else s)

/-- RETRANSMIT_TIMEOUT (R364): sent again with the timeout doubled, at most 8 times in all; then abandoned. -/
def execRetransmitTimeout (ep : BitVec 8) (seq : BitVec 64) (s : State) : Res :=
  let num := ep.toNat
  let n := seq.toNat
  .next (match (s.ep num).bind fun e => e.unacked.find? fun q => q.seq = n with
    | none => s
    | some q =>
      if q.sacked || (!q.due && s.time.mono.toNat < q.sentAt.toNat + q.rto) then s
      else if 8 ≤ q.sends then
        (s.modEp num fun e => { e with abandoned := e.abandoned + 1, unacked := e.unacked.filter fun x => x.seq ≠ n }).count (modCtr 0x0063 0)
      else s.resend num n)

/-- Is a message the last BULK chunk of its capture? -/
def lastChunk (m : Msg) : Bool := m.type = 0x0E#8 && m.field 183 120 + (m.body.length - 32) = m.field 119 56

/-- PACER_SEND (R366): the first paced message that waits, once the pacer and the client's window let it go. -/
def execPacerSend (ep : BitVec 8) (s : State) : Res :=
  let num := ep.toNat
  .next (match s.ep num with
    | none => s
    | some e =>
      match e.pacedq with
      | [] => s
      | m :: rest =>
        let n := (msgBytes m).length
        if e.mayPace s.time.mono.toNat n 0 then
          let s := s.modEp num fun e =>
            { e.pay s.time.mono n with pacedq := rest,
                                       bulk := if lastChunk m then e.bulk.map fun b => { b with lastSeq := some e.txNext } else e.bulk }
          s.sendData num [m]
        else s)

end Sys2Proof.Machine
end

