-- ==== Sys2Proof/Machine/Admission.lean ====
section
/-! DEFINITION. Admission.lean: the AE of the manager: its queue, the decision of an OPEN, allocation, decision records, the joint allocation of
a twinned pair, releases after drain and the module states (spec/13 R329 to R338, spec/16 R422, spec/18 R480). -/
namespace Sys2Proof.Machine

/-! ## Term and state checks (R331, Table 13.7) -/

/-- Reserved chunks of a class in tokens, ascending. -/
def ClassEntry.chunkSizes (c : ClassEntry) : List Nat :=
  (List.range (c.chunkMax.toNat + 1 - c.chunkMin.toNat)).map fun i => 128 * (c.chunkMin.toNat + i)

/-- Does a reserved chunk meet TTFT? -/
def meetsTtft (t : OpenTerms) (cr : Nat) : Bool := 1 + chunks t.prompt.toNat cr + t.grace.toNat ≤ t.ttft.toNat

/-- Term checks, codes 0x01 to 0x07 in ascending order. -/
def State.termCode (s : State) (f : FwdOpen) : Option Nat :=
  let t := f.terms
  if t.prompt = 0#32 || t.output = 0#32 || t.ttft.toNat < t.grace.toNat + 2 then some 1
  else match s.cclass t.cclass with
    | none => some 2
    | some c =>
      if c.promptMax.toNat < t.prompt.toNat || c.outputMax.toNat < t.output.toNat || t.cadence.toNat < c.cadenceMin.toNat ||
          c.cadenceMax.toNat < t.cadence.toNat || t.grace.toNat < c.graceMin.toNat then some 3
      else if !c.chunkSizes.any (meetsTtft t) then some 4
      else if ((s.kvOf c.inst).bind fun d => s.pageLog2For d (t.prompt.toNat + t.output.toNat)).isNone then some 5
      else if !(s.instModules c.inst).contains f.port then some 6
      else if !s.ae.isOpen then some 7
      else none

/-- What the AE holds of a module. -/
def State.info (s : State) (m : BitVec 10) : ModInfo := SMap.get s.ae.mods m.toNat .zero

/-- Is a module's pair exposed, or does the module or its twin carry taken-over sessions (R338, R409, R419, R422)? Of its own pair the manager knows
the state of Table 16.3. -/
def State.exposed (s : State) (m : BitVec 10) : Bool :=
  let i := s.info m
  i.adm = .exposed || i.takenOver ||
    (s.twinned && (i.twinAdm = .exposed || !s.ae.relayUp || (m = s.me && (s.twin.phase ≠ .paired || s.twin.reproving))))

/-- State checks of a module, by code 0x0D to 0x13. -/
def State.failsState (s : State) (m : BitVec 10) (code : Nat) : Bool :=
  let i := s.info m
  match code with
  | 0x0D => i.lag ≠ 0 || i.incomplete
  | 0x0E => i.overrun
  | 0x0F => s.exposed m
  | 0x10 => i.adm = .strained
  | 0x11 => i.hot
  | 0x12 => i.capAlarm
  | _ => s.twinned && (i.diverged || (m = s.me && s.twin.diverged))

/-- The lowest code of a state check that some module fails. -/
def State.stateCode (s : State) (ms : List (BitVec 10)) : Option Nat :=
  [0x0D, 0x0E, 0x0F, 0x10, 0x11, 0x12, 0x13].find? fun c => ms.any fun m => s.failsState m c

/-- The serving sum of time of a module in a stroke, in µs. -/
def State.workUs (s : State) (m : BitVec 10) (n : Nat) : Nat := ((s.sumsOf m s.ae.ledger (s.instsOf m) n).serving.time + 999) / 1000

/-- The stroke in which the lag of a module is projected to be regained, from a reported lag of stroke n; fuel bounds the search (R58). -/
def State.regain (s : State) (m : BitVec 10) : Nat → Nat → Nat → Option Nat
  | 0, _, _ => none
  | k + 1, n, p =>
    let t := s.domain.period.toNat
    let q := max (t - s.capacityNs / 1000) p + s.workUs m (n + 1) - t
    if q = 0 then some (n + 1) else regain s m k (n + 1) q

/-- Earliest admissible stroke of code 0x0D: the stroke after the last projected regain. -/
def State.lagEarliest (s : State) (ms : List (BitVec 10)) : Stroke :=
  let rs := (ms.filter fun m => s.failsState m 0x0D).map fun m => s.regain m 65536 (s.info m).lagStroke.toNat (s.info m).lag
  if rs.all (·.isSome) then BitVec.ofNat 48 ((rs.map fun r => r.getD 0).foldl max 0 + 1) else noStroke

/-! ## Allocation (R334) -/

/-- The last stroke of a schedule: that of its last output. -/
def LedgerEntry.lastStroke (e : LedgerEntry) : Nat := e.first.toNat + (e.terms.output.toNat - 1) * e.terms.cadence.toNat

/-- Does an entry hold its allocation in a decision at stroke a: now, or in a projection until its scheduled end (R333)? -/
def LedgerEntry.holds (e : LedgerEntry) (proj : Bool) (a : Nat) : Bool := !e.released && (!proj || a ≤ e.lastStroke)

/-- Allocations that count: of this domain and, in a twinned pair, of the other as far as known (R422). -/
def State.holders (s : State) (proj : Bool) (a : Nat) : List LedgerEntry := (s.ae.ledger ++ s.ae.twinUsed).filter fun e => e.holds proj a

/-- The lowest-numbered free ring of a port module. -/
def freeSlot (l : List LedgerEntry) (port : BitVec 10) : Option Nat :=
  let used := (l.filter fun e => e.port = port).map fun e => slotOfHandle e.handle
  (List.range 32768).find? fun n => !used.contains n

/-- Blocks of an instance of a USE, ascending. -/
def State.instBlocks (s : State) (inst : BitVec 16) (use : Nat) : List Nat :=
  match s.boot.plate with
  | none => []
  | some p =>
    ((p.placement.filter fun e => e.inst = inst && e.use.toNat = use).flatMap fun e =>
      (List.range e.blockCount.toNat).map fun i => e.blockBase.toNat + i).insertionSort (· ≤ ·)

/-- Blocks that an entry holds: frames and area. -/
def LedgerEntry.blocks (e : LedgerEntry) : List Nat :=
  (e.frames.flatMap fun f => (List.range e.frameLen).map fun i => f.toNat + i) ++ (List.range e.areaLen).map fun i => e.area.toNat + i

/-- The lowest-indexed run of k consecutive free blocks. -/
def lowestRun (free : List Nat) (k : Nat) : Option Nat := free.find? fun b => (List.range k).all fun i => free.contains (b + i)

/-- n frames of k blocks each, every one the lowest run then free. -/
def takeFrames (k : Nat) : Nat → List Nat → Option (List Nat)
  | 0, _ => some []
  | n + 1, free =>
    match lowestRun free k with
    | none => none
    | some b => (takeFrames k n (free.filter fun x => x < b || b + k ≤ x)).map (b :: ·)

/-- The generation after a slot's previous one, 0 skipped. -/
def nextGen (g : Nat) : Nat := if (g + 1) % 131072 = 0 then 1 else (g + 1) % 131072

/-- X of R341 in strokes, from the instance's DETECT_BOUND. -/
def State.shiftOf (s : State) (inst : BitVec 16) : Nat := ceilDiv (((s.admRec inst).map fun r => r.detect.toNat).getD 0) s.domain.period.toNat + 2

/-! ## Plans (R329, R331) -/

/-- A plan: its ledger entry and grant. -/
structure AdmPlan where
  entry : LedgerEntry
  grant : Grant

/-- A failed plan: the code, and the resource of codes 0x08 to 0x0A. -/
structure AdmFail where
  code : Nat
  res  : Nat

/-- The strokes in which a plan has rows, ascending. -/
def LedgerEntry.rowStrokes (e : LedgerEntry) : List Nat :=
  ((List.range (chunks e.terms.prompt.toNat e.chunk.toNat)).map fun j => e.begin_.toNat + j) ++
    (List.range (e.terms.output.toNat - 1)).map fun i => e.first.toNat + (i + 1) * e.terms.cadence.toNat

/-- The schedule of an OPEN at stroke a with a reserved chunk, and what R334 allocates for it on a free ring; none without free frames or area. -/
def State.allocate (s : State) (f : FwdOpen) (c : ClassEntry) (d : KvDesc) (a : Nat) (proj : Bool) (slot cr : Nat) : Option AdmPlan :=
  let t := f.terms
  let pl := (s.pageLog2For d (t.prompt.toNat + t.output.toNat)).getD 8
  let g := sessGeom d c t pl cr
  let held := s.holders proj a
  let used := held.flatMap LedgerEntry.blocks
  let k := g.kv.layers * g.kv.heads * 2 * g.kv.slabBytes
  let flen := ceilDiv k blockBytes
  let alen := g.areaBlocks
  match takeFrames flen g.kv.alloc ((s.instBlocks c.inst 3).filter fun b => !used.contains b),
        lowestRun ((s.instBlocks c.inst 4).filter fun b => !used.contains b) alen with
  | some fs, some ar =>
    let key := 32768 * f.port.toNat + slot
    let h := BitVec.ofNat 32 (slot * 131072 + nextGen (SMap.get s.ae.prevGen key 0))
    let first := BitVec.ofNat 48 (a + 1 + chunks t.prompt.toNat cr)
    let e : LedgerEntry :=
      { handle := h, port := f.port, terms := t, inst := c.inst, admAt := BitVec.ofNat 48 a, first := first, chunk := BitVec.ofNat 16 cr,
        pageLog2 := BitVec.ofNat 4 pl, frames := fs.map (BitVec.ofNat 32), frameLen := flen, area := BitVec.ofNat 32 ar, areaLen := alen,
        begin_ := BitVec.ofNat 48 (a + 2), stop := none, replays := [], held := false, drained := [], released := false, ring := false }
    let gr : Grant :=
      { handle := h, admAt := e.admAt, first := first, chunk := e.chunk, shift := BitVec.ofNat 8 (s.shiftOf c.inst), pageLog2 := e.pageLog2,
        frames := e.frames, area := e.area, areaLen := alen }
    some ⟨e, gr⟩
  | _, _ => none

/-- A plan: frames, then the checks, modules, strokes and resources in order. -/
def State.plan (s : State) (f : FwdOpen) (c : ClassEntry) (d : KvDesc) (a : Nat) (proj : Bool) (slot cr : Nat) : Except AdmFail AdmPlan :=
  match s.allocate f c d a proj slot cr with
  | none => .error ⟨0x0C, 0⟩
  | some p =>
    match (s.instModules c.inst).findSome? fun m => p.entry.rowStrokes.findSome? fun n => s.failsAt (s.ae.ledger ++ [p.entry]) c.inst m n resources with
    | some x => .error ⟨x.1, x.2.num⟩
    | none => .ok p

/-- What the allocation holder gives an OPEN that the other side's AE would accept with a reserved chunk (R422). -/
def State.holderPlan (s : State) (f : FwdOpen) (cr : Nat) : Option AdmPlan :=
  let a := s.time.stroke.toNat
  match s.cclass f.terms.cclass, freeSlot (s.holders false a) f.port with
  | some c, some slot => (s.kvOf c.inst).bind fun d => s.allocate f c d a false slot cr
  | _, _ => none

/-- The reserved chunks in turn: the first plan that passes, else the first failure. -/
def State.planChunks (s : State) (f : FwdOpen) (c : ClassEntry) (d : KvDesc) (a : Nat) (proj : Bool) (slot : Nat) :
    Option AdmFail → List Nat → Except AdmFail AdmPlan
  | first, [] => .error (first.getD ⟨4, 0⟩)
  | first, cr :: rest =>
    match s.plan f c d a proj slot cr with
    | .ok p => .ok p
    | .error x => planChunks s f c d a proj slot (some (first.getD x)) rest

/-- The part of decide that a projection repeats: ring, frames and checks at stroke a. -/
def State.decideAt (s : State) (f : FwdOpen) (a : Nat) (proj : Bool) : Except AdmFail AdmPlan :=
  match s.cclass f.terms.cclass with
  | none => .error ⟨2, 0⟩
  | some c =>
    match s.kvOf c.inst, freeSlot (s.holders proj a) f.port with
    | none, _ => .error ⟨5, 0⟩
    | some _, none => .error ⟨0x0B, 0⟩
    | some d, some slot => s.planChunks f c d a proj slot none (c.chunkSizes.filter (meetsTtft f.terms))

/-- Does a decision accept? -/
def accepts (x : Except AdmFail AdmPlan) : Bool :=
  match x with
  | .ok _ => true
  | .error _ => false

/-- The earliest admissible stroke of codes 0x08 to 0x0C (R333). -/
def State.search (s : State) (f : FwdOpen) (a : Nat) : Stroke :=
  match (List.range 65536).find? fun i => accepts (s.decideAt f (a + 1 + i) true) with
  | some i => BitVec.ofNat 48 (a + 1 + i)
  | none => noStroke

/-- A refusal. -/
def refusal (code res : Nat) (lead : BitVec 10) (earliest : Stroke) (a : Nat) : Decision :=
  .refuse ⟨BitVec.ofNat 8 code, BitVec.ofNat 8 res, lead, earliest, BitVec.ofNat 48 a⟩

/-- decide(open, a) of R331: the decision, and the plan of an acceptance. -/
def State.decide (s : State) (f : FwdOpen) (a : Nat) : Decision × Option AdmPlan :=
  let inst := ((s.cclass f.terms.cclass).map (·.inst)).getD 0xFFFF#16
  match s.termCode f with
  | some code => (refusal code 0 (if code = 6 then ((s.instRec inst).map (·.lead)).getD 0#10 else 0#10) noStroke a, none)
  | none =>
    match s.stateCode (s.instModules inst) with
    | some code => (refusal code 0 0#10 (if code = 0x0D then s.lagEarliest (s.instModules inst) else noStroke) a, none)
    | none =>
      match s.decideAt f a false with
      | .ok p => (.accept p.grant, some p)
      | .error x => (refusal x.code x.res 0#10 (if x.code = 4 then noStroke else s.search f a) a, none)

/-! ## Decisions sent (R336) -/

/-- The deputy that decision records go to: none in a domain of one module, or while there is no deputy (R441). -/
def State.deputyToAsk (s : State) : Option (BitVec 10) := s.ae.deputy.filter (· ≠ s.me)

/-- A decision leaves the manager: to the port module, and an acceptance to the other modules of the instance. -/
def State.sendDecision (s : State) (d : DecisionRec) : State :=
  let s := { s with ae := { s.ae with awaiting := s.ae.awaiting.filter (·.id ≠ d.id), records := s.ae.records ++ [d] } }
  let inst := ((s.cclass d.req.terms.cclass).map (·.inst)).getD 0xFFFF#16
  match d.dec with
  | .accept _ => (d.req.port :: (s.instModules inst).filter (· ≠ d.req.port)).foldl (fun s m => s.send m (.decision d)) s
  | .refuse _ => s.send d.req.port (.decision d)

/-- A decision made: its record goes to the deputy first, and the decision waits for its acknowledgement. -/
def State.putDecision (s : State) (req : FwdOpen) (dec : Decision) : State :=
  let d : DecisionRec := ⟨s.ae.nextId, req, dec⟩
  let s := { s with ae := { s.ae with nextId := s.ae.nextId + 1 } }
  match s.deputyToAsk with
  | some m => ({ s with ae := { s.ae with awaiting := s.ae.awaiting ++ [d] } }).send m (.decisionRecord d)
  | none => s.sendDecision d

/-- ADMISSION_QUEUE_ENQUEUE (R336): an OPEN already answered is answered from its record; a full queue refuses with 0x14. -/
def execAdmissionQueueEnqueue (f : FwdOpen) (s : State) : Res :=
  .next (if !s.isManager then s
    else match s.ae.records.find? fun d => d.req = f with
      | some d => s.send f.port (.decision d)
      | none =>
        if s.ae.queue.contains f || s.ae.awaiting.any (fun d => d.req = f) then s
        else if 1024 ≤ s.ae.queue.length then s.putDecision f (refusal 0x14 0 0#10 noStroke s.time.stroke.toNat)
        else { s with ae := { s.ae with queue := s.ae.queue ++ [f] } })

/-- An acceptance entered: allocation, generation, charges. -/
def State.enterPlan (s : State) (e : LedgerEntry) : State :=
  { s with ae := { s.ae with ledger := s.ae.ledger ++ [e],
                             prevGen := SMap.insert s.ae.prevGen (32768 * e.port.toNat + slotOfHandle e.handle) (e.handle.toNat % 131072) } }

/-- Must the AE of this side obtain an allocation from the holder, the manager of side A (R422)? -/
def State.asksHolder (s : State) : Bool := s.twinned && s.side

/-- An acceptance that waits for the holder's grant. -/
def State.awaitGrant (s : State) (f : FwdOpen) (dec : Decision) : State :=
  let d : DecisionRec := ⟨s.ae.nextId, f, dec⟩
  { s with ae := { s.ae with nextId := s.ae.nextId + 1, awaiting := s.ae.awaiting ++ [d] } }

/-- ADMISSION_DECISION (R331): the OPEN at the front of the queue. Side B's AE first obtains the allocation from the holder (R422). -/
def execAdmissionDecision (s : State) : Res :=
  .next (match s.isManager, s.ae.queue with
    | true, f :: rest =>
      let d := s.decide f s.time.stroke.toNat
      let s := { s with ae := { s.ae with queue := rest } }
      match d.2 with
      | none => s.putDecision f d.1
      | some p =>
        let s := s.enterPlan p.entry
        if s.asksHolder then (s.awaitGrant f d.1).emit (.twin (.relay (.allocRequest f p.grant)))
        else s.putDecision f d.1
    | _, _ => s)

/-- DECISION_RECORD_ACK (R336). -/
def execDecisionRecordAck (id : Nat) (s : State) : Res :=
  .next (match s.isManager, s.ae.awaiting.find? fun d => d.id = id with
    | true, some d => s.sendDecision d
    | _, _ => s)

/-! ## Joint allocation (R422) -/

/-- The grant of the holder takes the place of the one that side B's AE worked out: ring and generation, frames and area. -/
def LedgerEntry.regrant (e : LedgerEntry) (g : Grant) : LedgerEntry :=
  { e with handle := g.handle, frames := g.frames, area := g.area, areaLen := g.areaLen }

/-- ALLOCATION_GRANT (R422): the holder allocates for side B over the joint state and grants, or records a release; the manager of side B takes
the grant it waited for. Grants and releases go to the holder's deputy as records. -/
def execAllocationGrant (r : AllocRec) (s : State) : Res :=
  .next (if !s.isManager then s
    else match r with
      | .request f g =>
        if s.side then s
        else match s.holderPlan f g.chunk.toNat with
          | none => s
          | some p =>
            let e := p.entry
            let gr : Grant := { g with handle := e.handle, frames := e.frames, area := e.area, areaLen := e.areaLen }
            let key := 32768 * e.port.toNat + slotOfHandle e.handle
            let s := { s with ae := { s.ae with twinUsed := s.ae.twinUsed ++ [e], prevGen := SMap.insert s.ae.prevGen key (e.handle.toNat % 131072) } }
            let s := match s.deputyToAsk with
              | some m => s.send m (.alloc (.granted gr))
              | none => s
            s.emit (.twin (.relay (.allocGrant 0 gr)))
      | .granted g =>
        match s.ae.awaiting with
        | [] => s
        | d :: rest =>
          match d.dec with
          | .accept old =>
            let fix (e : LedgerEntry) : LedgerEntry :=
              if e.handle = old.handle && e.port = d.req.port && e.admAt = old.admAt then e.regrant g else e
            let s : State := { s with ae := { s.ae with awaiting := rest, ledger := s.ae.ledger.map fix } }
            s.putDecision d.req (.accept { old with handle := g.handle, frames := g.frames, area := g.area, areaLen := g.areaLen })
          | .refuse _ => s
      | .release port h =>
        let gone : SessKey := ⟨port, h⟩
        let s := { s with ae := { s.ae with twinUsed := s.ae.twinUsed.filter (·.key ≠ gone) }, sess := { s.sess with shadow := s.sess.shadow.filter (·.key ≠ gone) } }
        match s.deputyToAsk with
        | some m => s.send m (.alloc (.release port h))
        | none => s)

/-! ## Drain and release (R345, R480) -/

/-- A session that its port module has closed, as another module learns from a DRAINED: no more rows are built for it (notes/assumptions/40). -/
def State.noteClosed (s : State) (k : SessKey) : State :=
  (s.modSession k fun x =>
    if x.closing.isNone && x.port ≠ s.me then { x with closing := some ⟨0#8, 0#4, s.time.stroke, false⟩, held := [], replay := none } else x).noteOpen.sendDrained

/-- DRAINED (R480): counted at the manager, whose ledger drops the charges of a session of which it had not heard; the release follows at the next
boundary once every module has sent it. -/
def execDrained (port : BitVec 10) (handle : BitVec 32) (module : BitVec 10) (s : State) : Res :=
  let k : SessKey := ⟨port, handle⟩
  let s := s.noteClosed k
  .next (if !s.isManager then s
    else
      let mine (e : LedgerEntry) : Bool := e.key = k && !e.released && (s.instModules e.inst).contains module
      match s.ae.ledger.find? mine with
      | none => s
      | some _ =>
        let s := s.stopCharges k
        { s with ae := { s.ae with ledger := s.ae.ledger.map fun x =>
            if x.key = k && !x.drained.contains module then { x with drained := x.drained ++ [module] } else x } })

/-- Has every module of an entry's instance drained or failed? -/
def State.allDrained (s : State) (e : LedgerEntry) : Bool :=
  e.stop.isSome && !e.released && (s.instModules e.inst).all fun m => e.drained.contains m || (s.info m).failed

/-- Releases of the manager at a stroke boundary (R480), reported to the allocation holder. -/
def State.releaseDrained (s : State) : State :=
  let done := s.ae.ledger.filter s.allDrained
  let s := { s with ae := { s.ae with ledger := s.ae.ledger.filter fun e => !s.allDrained e } }
  done.foldl (fun s e =>
    if !s.twinned then s
    else if s.side then s.emit (.twin (.relay (.release e.port e.handle)))
    else match s.deputyToAsk with
      | some m => s.send m (.alloc (.release e.port e.handle))
      | none => s) s

/-! ## Module states (R337) -/

/-- Does a module pass a stroke under limits in permille: serving, twin (if counted), full? -/
def State.passesWith (s : State) (m : BitVec 10) (n : Nat) (serving : Nat) (twin : Option Nat) (full : Nat) : Bool :=
  let all := s.instsOf m
  all.all fun inst =>
    match s.admRec inst with
    | none => true
    | some i => resources.all fun r =>
      let t := s.sumsOf m s.ae.ledger (r.scope inst all) n
      let cap := s.capacity m i r
      within (t.serving.of r) cap serving && (match twin with
        | some w => within (t.twin.of r) cap w
        | none => true) && within (t.full.of r) cap full

/-- The strokes of the ledger still to come. -/
def State.ledgerStrokes (s : State) : List Nat :=
  let n := s.time.stroke.toNat
  let last := (s.ae.ledger.map LedgerEntry.lastStroke).foldl max n
  (List.range (last - n)).map fun i => n + 1 + i

/-- The state of a module (R337). -/
def State.stateOf (s : State) (m : BitVec 10) : AdmState :=
  let lim := s.admHdr.limits
  let ns := s.ledgerStrokes
  if ns.all fun n => s.passesWith m n lim.1 (if s.twinned then some lim.2.1 else none) lim.2.2 then .normal
  else if ns.all fun n => s.passesWith m n lim.2.2 none lim.2.2 then .exposed else .strained

/-- The AE recomputes the states of the modules; its own module STRAINED is exclusion 0x2 (R337, Table 13.11). -/
def State.recompute (s : State) : State :=
  if !s.isManager then s
  else
    let s := s.modules.foldl (fun t m => t.modInfo m fun x => { x with adm := s.stateOf m }) s
    let s := { s with ae := { s.ae with dirty := false } }
    if (s.info s.me).adm = .strained then s.beginExcl 2 none else s.endExcl 2 none

end Sys2Proof.Machine
end

