-- ==== Sys2Proof/Machine/Control.lean ====
section
/-! DEFINITION. Control.lean: the control commands that an owner executes itself (spec/03 R63, R73 to R75, R92, R93; spec/06 R165, R167), the
command with no opcode, and the failures of a head command: its timeout and the stream limit (R65, R80). -/
namespace Sys2Proof.Machine

/-- The position of a stream's head command. -/
def State.headPos (s : State) (i : Issue) : Nat := (((s.part i.part.toNat).owner i.owner).at i.prog).pos

/-- The command that a branch names: TARGET is a signed offset from this one (Table 3.7). -/
def branchTarget (pos : Nat) (t : BitVec 16) : Nat := ((pos : Int) + t.toInt).toNat

/-- The value of a summary slot now (R92). -/
def State.slotValue (s : State) (p : Nat) (o : CtlOps) : Word32 :=
  ((((s.part p).cluster o.sumcl.toNat).ve.slots)[o.sumslot.toNat]?).getD 0#32

/-- BRS (R92, R93): branches by TARGET when the summary slot meets the condition. -/
def execBrs (i : Issue) (o : CtlOps) (s : State) : Res :=
  issueControl i 0x40 o s fun s =>
    let taken := condHolds o.kind.toNat o.cond.toNat (s.slotValue i.part.toNat o) o.imm
    let t := branchTarget (s.headPos i) o.target
    (s.ctlDone i 0x40).executed i (if taken then (·.jump t) else .next)

/-- JUMP (R73): branches by TARGET. -/
def execJump (i : Issue) (o : CtlOps) (s : State) : Res :=
  issueControl i 0x41 o s fun s => (s.ctlDone i 0x41).executed i (·.jump (branchTarget (s.headPos i) o.target))

/-- The rows that STAGEMASK selects, in row order (R74). -/
def selectRows (rows : List BatchRow) (mask : BitVec 8) : List Nat :=
  (rows.zipIdx.filter fun r => mask.getLsbD r.1.stage.toNat).map (·.2)

/-- The position after a ROWLOOP: in its body for the first selected row, or past it (R74). -/
def StreamPos.enterLoop (x : StreamPos) (rows : List Nat) (o : CtlOps) : StreamPos :=
  match rows with
  | [] => { x with pos := x.pos + 1 + o.body.toNat }
  | _ => { x with pos := x.pos + 1, loop := some ⟨rows, 0, x.pos + 1, o.body.toNat, o.stride.toNat⟩ }

/-- ROWLOOP (R74): runs its body once for each selected row. -/
def execRowloop (i : Issue) (o : CtlOps) (s : State) : Res :=
  issueControl i 0x42 o s fun s => (s.ctlDone i 0x42).executed i (·.enterLoop (selectRows (s.rows i.inst) o.stagemask) o)

/-- The start of a phase of the work stroke that WAITPHASE names (R75, Table 2.4), in ns. -/
def State.phaseAt (s : State) (phase : Nat) : Nat :=
  match phase with
  | 0 => s.computeAt s.su.work.toNat
  | 1 => s.proofAt s.su.work.toNat
  | _ => s.dueAt s.su.work.toNat

/-- WAITPHASE (R75): completes once FT has reached the phase; until then the owner issues nothing. -/
def execWaitphase (i : Issue) (o : CtlOps) (s : State) : Res :=
  issueControl i 0x43 o s fun s =>
    let t := s.phaseAt o.phase.toNat
    if t ≤ s.time.ft.toNat then (s.ctlDone i 0x43).executed i .next
    else s.modPart i.part.toNat fun x => x.modOwner i.owner fun w => w.move i.prog fun q => { q with heldTo := some (BitVec.ofNat 64 t) }

/-- A stream's end for the work stroke: a serving owner goes on to its next instance (R63); a PROGRAM 2 stream waits for its next
release (R447). -/
def State.endStream (s : State) (i : Issue) : State :=
  let p := i.part.toNat
  if i.prog = 2#2 then
    s.modPart p fun x => x.modOwner i.owner fun o => { o with job := { StreamPos.reset with inst := i.inst, prog := 2#2 }, grant := false }
  else serveNext p i.owner (s.modPart p fun x => x.modOwner i.owner fun o => { o with ended := o.ended ++ [i.inst] })

/-- END (R63): ends the stream's commands for the work stroke. -/
def execStreamEnd (i : Issue) (o : CtlOps) (s : State) : Res :=
  issueControl i 0x44 o s fun s => (s.ctlDone i 0x44).endStream i

/-- A command word whose opcode is not in Table 3.3: a verified plate holds none (R67), so no stream reaches one and nothing happens. -/
def execInvalidOpcode (_w : BitVec 512) (s : State) : Res := .next s

/-- The word at the head of an issue's stream, if its header is the issue's. -/
def State.headedBy (s : State) (i : Issue) : Option (BitVec 512) :=
  (s.headWord i.part.toNat i.owner (((s.part i.part.toNat).owner i.owner).at i.prog)).filter fun w => wordHdr w = i.hdr

/-- When the command of an issue reached the head of its stream (R80): one accepted and not completed, else the one at the head. -/
def State.headSince (s : State) (i : Issue) : Option Word64 :=
  let x := s.part i.part.toNat
  let q := (x.owner i.owner).at i.prog
  match (x.unitCmds (unitOf i.hdr.engine.toNat)).find? fun c => c.owner = i.owner && c.inst = i.inst && c.prog = i.prog && c.hdr = i.hdr with
  | some c => some (c.headAt.getD c.issuedAt)
  | none => if q.inst = i.inst && q.prog = i.prog && (s.headedBy i).isSome then q.headAt else none

/-- A timeout that a throttled or stretched clock has lengthened beyond the instance's DETECT_BOUND is a recovery event outside Table 13.9: exclusion 0x5 for
the sessions with a row in the stroke, until they are restored (R488). -/
def State.lateDetection (s : State) (inst : BitVec 16) (since : Word64) : State :=
  match s.admRec inst with
  | some a =>
    if s.time.ft.toNat ≤ since.toNat + 1000 * a.detect.toNat then s
    else (s.sess.list.filter fun x => x.inst = inst && x.ranIn s.su.work && x.closing.isNone).foldl (fun s x => s.beginExcl 5 (some x.key)) s
  | none => s

/-- COMMAND_TIMEOUT (R80, R461): once TIMEOUT has run since the command reached the head of its stream, it has failed, and the reset of its engine
begins. A command of a stopped or failed stroke has no timeout any more (R466). -/
def execCommandTimeout (i : Issue) (s : State) : Res :=
  inPart s i.part.toNat (match s.headSince i with
    | some t =>
      if s.su.failed.contains i.inst && i.hdr.cls ≠ 5#4 then s
      else
        let s := s.reach (s.timeoutEnd t i.hdr.timeout)
        (if i.hdr.cls = 5#4 then s else s.lateDetection i.inst t).expireCmd i.part.toNat i.hdr.engine.toNat i.hdr.cls
    | none => s)

/-- STREAM_LIMIT_EXCEEDED (R65): the command is not issued, and handled as one whose timeout has expired. -/
def execStreamLimitExceeded (i : Issue) (s : State) : Res :=
  inPart s i.part.toNat
    (if s.owns i && s.overLimit i && (s.headedBy i).any (fun w => !(s.su.catchup && deferrable i.hdr && wordOpcode w < 0x40)) then
      s.expireCmd i.part.toNat i.hdr.engine.toNat i.hdr.cls
    else s)

/-- CLASS5_ISSUE (R91): the owner may issue the head command of its PROGRAM 2 stream, once serving is over on its partition and the
command's TIMEOUT ends by D. -/
def execClass5Issue (i : Issue) (s : State) : Res :=
  let p := i.part.toNat
  let o := (s.part p).owner i.owner
  let ok := s.job.phase = .running && i.prog = 2#2 && s.jobInst = some i.inst && o.job.headAt.isSome && !o.parked && s.slackFor p i.hdr
  inPart s p (if ok then s.modPart p fun x => x.modOwner i.owner fun o => { o with grant := true } else s)

/-- JOB_STREAM_PARK (R449): the stream counts as ended for the work stroke and issues nothing more in it. -/
def execJobStreamPark (part : BitVec 4) (owner : Owner) (s : State) : Res :=
  let p := part.toNat
  let x := s.part p
  let ok := (s.jobInst.any fun n => (s.stream p owner n 2#2).isSome) && s.servingOver p &&
    (s.su.catchup || x.allCmds.all fun c => !(c.hdr.cls = 5#4 && c.owner = owner))
  inPart s p (if ok then s.modPart p fun x => x.modOwner owner fun o => { o with parked := true, grant := false } else s)

end Sys2Proof.Machine
end

