-- ==== Sys2Proof/Machine/Complete.lean ====
section
/-! DEFINITION. Complete.lean: the completion of commands that take time (spec/03 R61, R78, R81; spec/04 R115; spec/06 R154, R161), signals
that reach a partition, a failed stroke (spec/09 R243, spec/18 R466), and the events of scratchpad banks and of the codebook cache. -/
namespace Sys2Proof.Machine

/-! ## A failed stroke (R243, R466) -/

/-- An instance has failed a stroke here. In the work stroke its unissued commands are retired without effect; a later stroke fails when it becomes the
work stroke, and of an earlier one the restore alone is left to do. -/
def State.failHere (s : State) (inst : BitVec 16) (w : Stroke) : State :=
  if s.su.restore.contains (inst, w) || s.su.doomed.contains (inst, w) || (w = s.su.work && s.su.failed.contains inst) then s
  else if s.su.work.toNat < w.toNat then { s with su := { s.su with doomed := s.su.doomed ++ [(inst, w)] } }
  else
    let s := s.event (devNotice 0x12 0x40 0x33 inst.toNat)
    let s := { s with su := { s.su with restore := s.su.restore ++ [(inst, w)] } }
    if w ≠ s.su.work then s
    else
      let s := { s with su := { s.su with failed := s.su.failed ++ [inst] } }
      serveAll (s.mapParts fun x => x.mapOwners fun o => if o.ended.contains inst then o else { o with ended := o.ended ++ [inst] })

/-- The SU notifies the instance's other modules (R466), and the manager, whose AE moves the charges (R341; notes/assumptions/26). -/
def State.failStroke (s : State) (inst : BitVec 16) : State :=
  if s.su.failed.contains inst then s
  else
    let mods := ((s.instRec inst).map InstanceRec.modules).getD []
    let others := (if mods.contains s.ae.manager then mods else mods ++ [s.ae.manager]).filter (· ≠ s.me)
    others.foldl (fun s d => s.send d (.strokeFailed inst s.su.work)) (s.failHere inst s.su.work)

/-- A number added to a list once. -/
def addOnce (l : List (BitVec 16)) (n : BitVec 16) : List (BitVec 16) := if l.contains n then l else l ++ [n]

/-! ## Stalls (R174 to R177, R181) -/

/-- Class number of a requester (0x0110). -/
def classNum (c : PortClass) : Nat :=
  match c with
  | .matrix => 0
  | .vector => 1
  | .dma => 2

/-- The class of an engine's ports (Table 7.2). -/
def classOf (engine : Nat) : PortClass :=
  match unitOf engine with
  | .array _ _ => .matrix
  | .ve _ => .vector
  | _ => .dma

/-- The bank of a scratchpad offset: B(4 GROUP + BANK) (Table 7.1). -/
def bankOf (off : Nat) : Nat := 4 * groupOf off + off / 256 % 4

/-- Group rows that a run touches beyond those of an aligned run of its length (R174). -/
def extraRows (off n : Nat) : Nat := (off % 1024 + n + 1023) / 1024 - (n + 1023) / 1024

/-- The runs that a command streams at 1,024 B a cycle (R174): a VOP's, and an MLOAD's tile. -/
def RunCmd.streams (c : RunCmd) : List (Nat × Nat) :=
  match c.kind, c.args with
  | .vop op, .vec o => vopRuns op c.hdr o c.off
  | .mload, .mat o => [(c.operand o.src, tileBytes c.hdr.srcfmt.toNat o.k.toNat o.n.toNat)]
  | _, _ => []

/-- The stall cycles that a command's misaligned runs cost it: its ports stream together, so the longest delay counts (R174). -/
def RunCmd.rowStall (c : RunCmd) : Nat := (c.streams.map fun r => extraRows r.1 r.2).foldl max 0

/-- Cycles that requests of a class lost at a bank, counted there (R177), and, where the group's kind is another class's, as cross-kind stalls of the
group (R181). -/
def State.countLost (s : State) (p : Nat) (cls : PortClass) (bank n : Nat) : State :=
  let s := s.count ⟨0x0110, p, 0xFF, bank * 4 + classNum cls⟩ n
  let kind := s.groupKind p (bank / 4)
  let cross := match cls with
    | .matrix => kind = 3 || kind = 4
    | .vector => kind = 2 || kind = 4
    | .dma => false
  if cross then s.count ⟨0x0111, p, 0xFF, bank / 4⟩ n else s

/-! ## Completion -/

/-- The command of an opcode that an engine completes next (R61, R114, R115, R161), if one has done its work. -/
def Part.completing (x : Part) (engine opcode : Nat) : Option RunCmd :=
  let running := match unitOf engine with
    | .array k a => ((x.cluster k).array a).running
    | .ve k => (x.cluster k).ve.running
    | .de => x.de.running
    | .dcache => x.dcache.running
    | _ => []
  running.find? fun c => c.kind.opcode = opcode && c.done && (x.openReqs c.serial).isEmpty

/-- When a command that has started ends, with its stalls (R115, R116). -/
def State.endOf (s : State) (c : RunCmd) : Nat := (c.startAt.getD c.issuedAt).toNat + s.clockNs c.cnt.busy

/-- A completed command leaves its engine, the rest of its lines written; a CINV drops what was filled since it started (R276). -/
def Part.finish (x : Part) (engine : Nat) (c : RunCmd) (t : Nat) : Part :=
  let x := x.putLines c.lines
  match unitOf engine with
  | .array k a => x.modCluster k fun cl => cl.finish a c t
  | .ve k => x.modCluster k fun cl => { cl with ve := cl.ve.finish c }
  | .dcache => (match c.args with
    | .de o => x.dropLines o
    | _ => x).dropCmd .dcache c.serial
  | u => x.dropCmd u c.serial

/-- The cumulative busy counters of a die (0x0020: cycles of arrays that hold a row, those that an overlapping MMUL has counted apart; 0x0021: VEs). -/
def State.countBusy (s : State) (p engine : Nat) (c : RunCmd) : State :=
  match unitOf engine, c.kind, c.args with
  | .array k _, .mmul, .mat o => (gangArrays o.gang.toNat (engine % 8)).foldl (fun s i =>
      let free := (((s.part p).cluster k).array i).clock.heldTo
      s.count ⟨0x0020, p, 0xFF, 0⟩ (cyclesOf (s.endOf c - max free (c.startAt.getD c.issuedAt).toNat))) s
  | _, .vop _, _ => s.count ⟨0x0021, p, 0xFF, 0⟩ c.cnt.busy
  | _, _, _ => s

/-- Outcome of a completed command in its COMMAND record (Table 21.5). -/
def CmdEnd.outcome (e : CmdEnd) : Nat :=
  match e with
  | .ok => 0
  | _ => 1

/-- What follows the end of a command: its signal, or, when it failed, its owner's stop and the failed stroke of its instance (R243, R253, R466); a
command of the job stops the job instead (R458). -/
def State.afterEnd (s : State) (p engine : Nat) (c : RunCmd) : State :=
  if c.ending = .ok then s.sigEn p engine c.serial c.hdr
  else if c.hdr.cls = 5#4 then s.haltJob
  else (s.modPart p fun x => x.modOwner c.owner fun o => { o with stopped := addOnce o.stopped c.inst }).failStroke c.inst

/-- A command with its stalls: those its bank accesses lost and those of its misaligned runs. -/
def RunCmd.stalled (c : RunCmd) (n : Nat) : RunCmd :=
  { c with cnt := { c.cnt with busy := c.cnt.busy + n + c.rowStall, stall := c.cnt.stall + n + c.rowStall } }

/-- One command of an engine completes, its stalls counted; one whose TIMEOUT has run by then has failed instead (R80), and one whose GEN is stale is
discarded (R81). -/
def State.complete (s : State) (p engine opcode : Nat) (st : Stalls) : State :=
  match (s.part p).completing engine opcode with
  | none => s
  | some c0 =>
    let c := c0.stalled st.cycles.toNat
    let t := s.endOf c
    let due := s.timeoutEnd (c.headAt.getD c.issuedAt) c.hdr.timeout
    if c.gen ≠ (s.part p).genOf (unitOf engine) then (s.reach t).modPart p fun x => x.dropCmd (unitOf engine) c.serial
    else if due < t then (s.reach due).expireCmd p engine c.hdr.cls
    else
      let s := st.lost.foldl (fun s b => s.countLost p (classOf engine) b.1.toNat b.2.toNat) (s.reach t)
      let s := (s.countBusy p engine c).modPart p fun x => x.finish engine c t
      let s := (s.afterEnd p engine c).closeCmd p engine c c.ending.outcome 1
      (s.flushReleases p).runOn p

/-- COMMAND_COMPLETION (R115): the engine's next command of an opcode completes. -/
def execCommandCompletion (part : BitVec 4) (engine : BitVec 8) (c : Completion) (s : State) : Res :=
  inPart s part.toNat (if (s.part part.toNat).reset.isSome then s
    else (s.noteErrs c.errs).complete part.toNat engine.toNat c.opcode.toNat c.stalls)

/-- SIGNAL_APPLY (R78, R448): a partition applies a signal by its stroke; one that must be parked while the buffer is full waits with its
sender. -/
def execSignalApply (part : BitVec 4) (sig : Signal) (s : State) : Res :=
  inPart s part.toNat (if (s.part part.toNat).reset.isSome then s else s.signal part.toNat sig)

/-- UNCORRECTABLE_STROKE_FAIL (R243): the owner issues nothing more in the stroke, and the instance has failed it. -/
def execUncorrectableStrokeFail (part : BitVec 4) (owner : Owner) (inst : BitVec 16) (s : State) : Res :=
  inPart s part.toNat
    ((s.modPart part.toNat fun x => x.modOwner owner fun o => { o with stopped := addOnce o.stopped inst }).failStroke inst)

/-! ## Scratchpad banks and the codebook cache -/

/-- Rank of a port in Table 7.3 at a bank side, the DE's and the die-to-die port's below every cluster's. -/
def portRank (p : PadPort) (side : BankSide) : Nat :=
  match side, p with
  | .read, .activation k => k.val
  | .read, .weight k => 4 + k.val
  | .read, .veSource k n => 8 + 3 * k.val + n.val
  | .write, .drain k => k.val
  | .write, .veDest k => 4 + k.val
  | _, .deRead | _, .deWrite => 20
  | _, .dieRead | _, .dieWrite => 21
  | _, _ => 22

/-- The class of a port (Table 7.2). -/
def portClass (p : PadPort) : PortClass :=
  match p with
  | .activation _ | .weight _ | .drain _ => .matrix
  | .veSource _ _ | .veDest _ => .vector
  | .deRead | .deWrite | .dieRead | .dieWrite => .dma

/-- Of two starved requests the one that has waited longer, else the one earlier in Table 7.3 (R176). -/
def starvedFirst (side : BankSide) : List Starved → Option Starved
  | [] => none
  | r :: rest =>
    match starvedFirst side rest with
    | some q => if r.waited.toNat < q.waited.toNat || (r.waited = q.waited && portRank q.port side < portRank r.port side) then some q else some r
    | none => some r

/-- ARBITRATION_STARVATION (R176): of the requests that have lost at a bank side in 1,024 consecutive cycles one is granted ahead of every rank; the
event is counted for the bank, and the cycles that it lost are stall cycles of its bank and class (R177). -/
def execArbitrationStarvation (part : BitVec 4) (bank : BitVec 6) (side : BankSide) (reqs : List Starved) (s : State) : Res :=
  let p := part.toNat
  inPart s p (match starvedFirst side (reqs.filter fun r => 1024 ≤ r.waited.toNat) with
    | some r => (s.countLost p (portClass r.port) bank.toNat r.waited.toNat).modPart p fun x =>
        { x with starved := SMap.insert x.starved bank.toNat (SMap.get x.starved bank.toNat 0 + 1) }
    | none => s)

/-- SCRATCHPAD_CORRECTION_WRITEBACK (R183): a word with one flipped bit is written back corrected and the correction counted, so its contents stand; a
word with two is uncorrectable from now on, until it is written. -/
def execScratchpadCorrectionWriteback (part : BitVec 4) (e : WordError) (s : State) : Res :=
  let w := e.offset.toNat / 8
  inPart s part.toNat (s.modPart part.toNat fun x =>
    if e.double then { x with bad := setInsert x.bad w }
    else if x.bad.contains w then x
    else { x with sp := x.sp.write (w * 8) (x.sp.readN (w * 8) 8), fixed := x.fixed + 1 })

/-- CODEBOOK_FETCH_COMPLETE (R211): the record enters the codebook cache and the blocks that waited for it are expanded. -/
def execCodebookFetchComplete (part : BitVec 4) (addr : GAddr) (s : State) : Res :=
  let p := part.toNat
  let ready := (s.part p).de.bookFetch.any fun f => f.1 = addr.toNat && !f.2.isEmpty &&
    ((s.part p).de.sendq ++ (s.part p).de.inflight).all fun r => match r.use with
      | .codebook a => a ≠ addr.toNat
      | _ => true
  inPart s p (if ready then (s.modPart p fun x => x.cacheBook addr.toNat).runOn p else s)

end Sys2Proof.Machine
end

