-- ==== Sys2Proof/Machine/StoreOps.lean ====
section
/-! DEFINITION. StoreOps.lean: the module as AST client of the shared store (spec/16 R431, R432; spec/20 R505, R506), and what start and
teardown do to keys and boot record (spec/15 R385, spec/20 R502, R512). -/
namespace Sys2Proof.Machine

/-! ## Keys and boot record -/

/-- The tenant's keys destroyed: EPOCH advances with EPOCH_SEED, up to 1,023, and ROOT goes (R502, R512). -/
def State.destroyKeys (s : State) : State :=
  let last : Bool := 1023 ≤ s.sec.epoch.toNat
  { s with sec := { s.sec with
      epoch := if last then s.sec.epoch else s.sec.epoch + 1#16,
      seed := if last then s.sec.seed else Config.sha3 (leBytes 64 s.sec.seed.toNat ++ ascii "SKZ next"),
      root := none, destroyed := false, spent := s.sec.spent || last } }

/-- A changed boot record goes to the copy that is not in use, with COUNT one higher (R385). -/
def State.writeBoot (s : State) (f : BootRec → BootRec) : State :=
  let r := s.boot.record
  let n : BootRec := { f r with count := r.count + 1#32 }
  if s.boot.rec0 = some r then { s with boot := { s.boot with rec1 := some n } } else { s with boot := { s.boot with rec0 := some n } }

/-! ## The association with the store -/

/-- The PROOF record of the plate in effect. -/
def State.proofRec (s : State) : Option ProofRec := s.boot.plate.map (·.proof)

/-- Is a shared store named (R431)? -/
def State.hasStore (s : State) : Bool := s.proofRec.any fun p => p.storeKey ≠ 0#512

/-- The store's address; IPv6 where the plate gives one (DESIGN CHOICE, notes/assumptions/53). -/
def State.storeAddr (s : State) : NetAddr :=
  match s.proofRec with
  | some p => if p.storeIp6 ≠ 0#128 then ⟨true, p.storeIp6, p.storePort⟩ else ⟨false, BitVec.ofNat 128 p.storeIp4.toNat, p.storePort⟩
  | none => ⟨false, 0#128, 0#16⟩

/-- The HELLO_C of the association in progress; PACE is the port's 1.6 Tb/s (DESIGN CHOICE, notes/assumptions/53). -/
def State.storeHelloC (s : State) : HelloC :=
  let l := s.trans.store
  { hdr := handshakeHdr 1 0#8 l.conn 4200, bodyLen := 4200, pace := 16000#16, replace := 0xFF#8, rsvd := 0#40, nonce := l.nonce,
    ekey := Config.mlkemKey l.ekey, pubKey := s.pubKey, src := s.storeAddr }

/-- A handshake with the store begins: fresh nonce, ephemeral key and CONN. -/
def State.beginStore (s : State) : State :=
  let n := s.free
  let l := { s.trans.store with phase := 1, conn := BitVec.ofNat 32 (Config.freeNat n), ekey := n + 1, nonce := Config.random256 (n + 2), txNext := 0 }
  let s := { s with free := n + 3, trans := { s.trans with store := l } }
  s.emit (.store (.helloC s.storeHelloC))

/-- A handshake begins unless one runs or the association is live. -/
def State.wantStore (s : State) : State := if s.trans.linkUp && s.trans.store.phase = 0 then s.beginStore else s

/-- NAME of a proof object (R432). -/
def State.proofName (s : State) (stroke : Nat) : BitVec 64 :=
  BitVec.ofNat 64 (2 ^ 63 + ((s.boot.plate.map (·.header.domainId.toNat)).getD 0) * 2 ^ 47 + s.side.toNat * 2 ^ 46 + s.me.toNat * 2 ^ 36 + stroke % 2 ^ 36)

/-- The tenant's proof key (Table 20.6). -/
def State.proofKey (s : State) : BitVec 256 :=
  let dom := (s.boot.plate.map (·.header.domainId.toNat)).getD 0
  (Config.sha3 (leBytes 32 ((s.sec.root.map BitVec.toNat).getD 0) ++ ascii "SKZ proof" ++ leBytes 2 dom)).extractLsb' 0 256

/-- The tag of a piece of a proof object (R506). -/
def State.proofTag (s : State) (name offset total : BitVec 64) (data : List Byte) : BitVec 128 :=
  let nonce := ((Config.sha3 (leBytes 8 name.toNat ++ leBytes 8 offset.toNat)).extractLsb' 0 96).toNat
  Config.gcmTag s.proofKey nonce (leBytes 8 name.toNat ++ leBytes 8 offset.toNat ++ leBytes 8 total.toNat) data

/-- STORE_GET of a whole object: its LENGTH is asked from OFFSET 0. -/
def State.sendGet (s : State) (name : BitVec 64) (length : Nat) : State := s.emit (.store (.get name 0#64 (BitVec.ofNat 64 length)))

/-- Length of an object asked for by NAME: the plate's, or for a proof all that the store has (the largest LENGTH). -/
def State.getLength (s : State) (name : BitVec 64) : Nat :=
  (s.boot.plate.bind fun p => (p.objects.find? fun o => o.name = name).map fun o => o.length.toNat).getD (2 ^ 64 - 1)

/-- An object asked of the store: at once over a live association, else when it is live. -/
def State.storeGet (s : State) (name : BitVec 64) : State :=
  if s.trans.store.getting.contains name then s
  else
    let s := { s with trans := { s.trans with store := { s.trans.store with getting := s.trans.store.getting ++ [name] } } }
    if s.trans.store.phase = 2 then s.sendGet name (s.getLength name) else s.wantStore

/-- The bytes of a proof object: the records, then the proof bytes, of every layer-3 capture of a stroke (DESIGN CHOICE, notes/assumptions/53). -/
def State.proofObject (s : State) (stroke : Stroke) : List Byte :=
  (s.twin.captures.filter fun c => c.layer = 3 && c.inst ≠ 0xFFFF#16 && c.stroke = stroke).flatMap fun c =>
    (c.recs.flatMap fun r => recordBytes r.record) ++ c.copied.flatMap (·.2)

/-- The bytes of the job proof captured in a stroke (R456). -/
def State.jobObject (s : State) (stroke : Stroke) : List Byte :=
  (s.twin.captures.filter fun c => c.layer = 3 && c.inst = 0xFFFF#16 && c.stroke = stroke).flatMap fun c => c.copied.flatMap (·.2)

/-- STORE_PUT of bytes from an offset of an object on, in pieces of at most 8,192 B sealed under the proof key (R506). -/
def State.sendPut (s : State) (name : BitVec 64) (base : Nat) (bytes : List Byte) : State :=
  let total := BitVec.ofNat 64 (base + bytes.length)
  (chunksOf 8192 ((bytes.length + 8191) / 8192) bytes).zipIdx.foldl (fun s c =>
    let off := BitVec.ofNat 64 (base + 8192 * c.2)
    s.emit (.store (.put name off total c.1 (s.proofTag name off total c.1)))) s

/-- The session part of a proof object, or its job part from byte 2^62 on. -/
def State.putPart (s : State) (stroke : Stroke) (job : Bool) : State :=
  if job then s.sendPut (s.proofName stroke.toNat) (2 ^ 62) (s.jobObject stroke) else s.sendPut (s.proofName stroke.toNat) 0 (s.proofObject stroke)

/-- A part of a proof object of a stroke put into the store: at once over a live association, else when it is live. Each part waits for a
STORE_DONE of its own. -/
def State.storePut (s : State) (q : Stroke × Bool) : State :=
  let l := s.trans.store
  if l.putting.contains q then s
  else
    let s : State := { s with trans := { s.trans with store := { l with putting := l.putting ++ [q] } } }
    if l.phase = 2 then s.putPart q.1 q.2 else s.wantStore

/-- The part of a proof object that a capture belongs to. -/
def Capture.part (c : Capture) : Stroke × Bool := (c.stroke, c.inst = 0xFFFF#16)

/-- The parts whose captures are all closed and copied. -/
def State.putParts (s : State) : List (Stroke × Bool) :=
  let l := s.twin.captures.filter fun c => c.layer = 3
  (l.map Capture.part).eraseDups.filter fun q => l.all fun c => c.part ≠ q || (c.closed && c.left.isEmpty)

/-- The association is live: what is outstanding goes out. -/
def State.flushStore (s : State) : State :=
  let s := s.trans.store.getting.foldl (fun s n => s.sendGet n (s.getLength n)) s
  s.trans.store.putting.foldl (fun s q => s.putPart q.1 q.2) s

end Sys2Proof.Machine
end

