-- ==== Sys2Proof/Machine/VerifyCmds.lean ====
section
/-! DEFINITION. VerifyCmds.lean: the rules under which the commands of a plate's streams fail verification (spec/03 R67, R91, R92, spec/04 R117, spec/06
R152, R162, R167, spec/07 R180, spec/08 R214, spec/11 R275, R284, spec/16 R426, spec/17 R445, R448). Each check answers true where its rule is met. -/
namespace Sys2Proof.Machine

/-- A stream as verification sees it: the plate, the stream, and its commands decoded. -/
structure StreamView where
  plate : Plate
  rec'  : StreamRec
  hdrs  : List CmdHdr
  cmds  : List PlateCmd

/-- Commands of the stream. -/
def StreamView.len (v : StreamView) : Nat := v.cmds.length

/-- Opcode of a decoded command (Table 3.3). -/
def cmdOpcode (c : PlateCmd) : Nat :=
  match c with
  | .nop => 0x01
  | .mat op _ => op
  | .vec _ _ => 0x20
  | .de op _ => op
  | .cinv _ => 0x38
  | .ctl op _ => op

/-- A signed branch offset. -/
def signed16 (t : BitVec 16) : Int := t.toInt

/-- The branch target of the command at an index: BRS and JUMP (R67). -/
def StreamView.target (v : StreamView) (j : Nat) : Option Int :=
  match v.cmds[j]? with
  | some (.ctl op o) => if op = 0x40 || op = 0x41 then some (j + signed16 o.target) else none
  | _ => none

/-- The ROWLOOP at an index: its body length and STRIDE. -/
def StreamView.rowloopAt (v : StreamView) (i : Nat) : Option (Nat × Nat) :=
  match v.cmds[i]? with
  | some (.ctl op o) => if op = 0x42 then some (o.body.toNat, o.stride.toNat) else none
  | _ => none

/-- The ROWLOOP whose body holds the command at an index: its index, body length and STRIDE (R74). -/
def StreamView.loopOf (v : StreamView) (j : Nat) : Option (Nat × Nat × Nat) :=
  (List.range j).findSome? fun i => (v.rowloopAt i).bind fun l => if j ≤ i + l.1 then some (i, l.1, l.2) else none

/-- Does a command name an engine that Table 3.3 allows for it? -/
def engineAllowed (c : PlateCmd) (e : Nat) : Bool :=
  match c with
  | .nop => (e < 32 && e % 8 < 6) || (0x20 ≤ e && e ≤ 0x24)
  | .mat _ o => e < 32 && e % 8 < 4 && (o.gang = 0#4 || e % 8 = 0)
  | .vec _ _ => e < 32 && e % 8 = 4
  | .de _ _ => e = 0x21
  | .cinv _ => e = 0x22
  | .ctl _ _ => (e < 32 && e % 8 = 5) || e = 0x20

/-- Is the engine of a matrix, vector or control command the stream owner's own (R67)? -/
def ownEngine (owner : Nat) (c : PlateCmd) (e : Nat) : Bool :=
  match c with
  | .mat _ _ | .vec _ _ => owner < 4 && e / 8 = owner
  | .ctl _ _ => e = if owner = 4 then 0x20 else 8 * owner + 5
  | _ => true

/-- A scratchpad offset field: bits [31:26] zero, and a multiple of 32 where ROWREL is clear (R117). -/
def spField (rowrel : Bool) (f : BitVec 32) : Bool := f.toNat < spBytes && (rowrel || f.toNat % 32 = 0)

/-- R117. -/
def matOk (h : CmdHdr) (op : Nat) (o : MatOps) : Bool :=
  let g := o.gang.toNat
  let k := o.k.toNat
  let n := o.n.toNat
  let m := o.m.toNat
  let drain := op = 0x12
  let fmt : Bool := if drain then h.srcfmt = 0#4 && 1 ≤ h.dstfmt.toNat && h.dstfmt.toNat ≤ 9
    else 1 ≤ h.srcfmt.toNat && h.srcfmt.toNat ≤ 8 && h.dstfmt = 0#4
  let kOk : Bool := if drain then k = 0 else 32 ≤ k && k % 32 = 0 && k ≤ gangDepth g
  let mOk : Bool := if op = 0x10 then m = 0 else 1 ≤ m && m ≤ 1024
  let acc : Bool := if op = 0x11 then o.acc.toNat ≤ 1 else o.acc = 0#2
  fmt && g ≤ 3 && kOk && 32 ≤ n && n % 32 = 0 && n ≤ gangWidth g && mOk && o.accBase.toNat + m ≤ 1024 && acc &&
    spField h.rowrel o.src && spField h.rowrel o.aux

/-- A window field: the pass register, or an aligned offset (R147). -/
def winOk (f : BitVec 32) : Bool := f = 0xFFFFFFFF#32 || (f.toNat < spBytes && f.toNat % 32 = 0)

/-- The pairs of CVT (R158). -/
def cvtPair (src dst : Nat) : Bool :=
  (1 ≤ src && src ≤ 10 && dst = 9) || (src = 9 && 1 ≤ dst && dst ≤ 10)

/-- Does a VOP name the pass register as DST? -/
def vopWritesPass (op : VOp) (o : VecOps) : Bool := op.hasDst && o.dst = 0xFFFFFFFF#32

/-- R162, but for its conditions on the stream. -/
def vopOk (h : CmdHdr) (op : VOp) (o : VecOps) : Bool :=
  let u := op.uses
  let sum := vopSumkind o
  let b := vopBsrc o
  let imm := o.imm.toNat
  let table := op = .gather || op = .mld
  let pass := vopNamesPass op o || vopWritesPass op o
  let wide (f : BitVec 4) : Bool := f = 9#4 || f = 10#4
  sum ≠ 7 && b ≠ 3 && bitsOf o.mod.toNat 4 2 = 0 &&
    (sum = 0 || !(op = .topk || op = .mld || op = .statrd)) && (b = 0 || u.2.1) &&
    (u.1 || o.srcA = 0#32) && (u.2.1 || table || o.srcB = 0#32) && (u.2.2 || op = .mld || o.srcC = 0#32) && (op.hasDst || o.dst = 0#32) &&
    (!u.1 || winOk o.srcA) && (!(u.2.1 || op = .gather) || winOk o.srcB) && (!u.2.2 || winOk o.srcC) && (!op.hasDst || winOk o.dst) &&
    o.count ≠ 0#16 && (!pass || o.count = 1#16) &&
    (if op = .cvt then cvtPair h.srcfmt.toNat h.dstfmt.toNat && (!vopNamesPass op o || wide h.srcfmt) && (!vopWritesPass op o || wide h.dstfmt)
     else h.srcfmt = 0#4 && h.dstfmt = 0#4) &&
    (op ≠ .topk || (1 ≤ imm && imm ≤ 1024 && imm ≤ o.count.toNat * 1024)) &&
    (op ≠ .gather || (1 ≤ imm && (imm ≤ 1024 || o.srcB ≠ 0xFFFFFFFF#32))) && (op ≠ .statrd || imm ≤ 6)

/-- No row or head field set. -/
def noRows (o : DeOps) : Bool := o.rowFirst = 0#16 && o.rowCount = 0#16 && o.headFirst = 0#8 && o.headCount = 0#8

/-- A scratchpad offset in ADDR_B: bits [55:26] zero and a multiple of n. -/
def bOffset (o : DeOps) (n : Nat) : Bool := o.addrB.toNat < spBytes && o.addrB.toNat % n = 0

/-- R284. -/
def datomOk (o : DeOps) : Bool :=
  match atomOf o.subop.toNat with
  | none => false
  | some a =>
    gaSpace o.addrA = 0 && o.addrA.toNat % a.size = 0 && bOffset o 8 && (a = .cas32 || o.value.toNat < 2 ^ (8 * a.size)) && o.len = 0#32 && noRows o

/-- The KV descriptor of the stream's partition for its instance. -/
def StreamView.kv (v : StreamView) : Option KvDesc :=
  (v.plate.kv.find? fun k => k.module = v.rec'.module && k.part.toNat = v.rec'.part.toNat && k.inst = v.rec'.inst).map (·.desc)

/-- Layer and heads within a KV descriptor. -/
def headsOk (d : KvDesc) (h : CmdHdr) (o : DeOps) : Bool :=
  h.layer.toNat < d.layers.toNat && o.headFirst.toNat + o.headCount.toNat ≤ d.kvHeads.toNat

/-- R214. -/
def StreamView.attentionOk (v : StreamView) (h : CmdHdr) (op : Nat) (o : DeOps) : Bool :=
  v.kv.any (fun d => headsOk d h o) && o.headCount ≠ 0#8 && bOffset o 128 && o.addrA = 0#56 && o.len = 0#32 && o.value = 0#64 &&
    (if op = 0x31 then o.subop.toNat ≤ 1 else o.subop = 0#8) && (h.cls = 0#4 || (op = 0x33 && h.cls = 2#4)) &&
    (h.rowrel || o.rowCount ≠ 0#16)

/-- R426. -/
def StreamView.dproofOk (v : StreamView) (h : CmdHdr) (o : DeOps) : Bool :=
  let layer := o.subop.toNat
  1 ≤ layer && layer ≤ 3 && (h.cls = 4#4 || (layer = 1 && h.cls = 0#4)) && o.addrB = 0#56 && o.value = 0#64 &&
    (if o.len = 0#32 then o.addrA = 0#56 && v.kv.any (fun d => headsOk d h o)
     else noRows o && gaSpace o.addrA = 0 && o.addrA.toNat % 128 = 0)

/-- R275. -/
def cinvOk (o : DeOps) : Bool :=
  gaSpace o.addrA = 0 && o.addrA.toNat % 128 = 0 && o.addrB = 0#56 && o.value = 0#64 && o.subop = 0#8 && noRows o

/-- The rules on the fields of one DE command. -/
def StreamView.deOk (v : StreamView) (h : CmdHdr) (op : Nat) (o : DeOps) : Bool :=
  match op with
  | 0x31 | 0x32 | 0x33 => v.attentionOk h op o
  | 0x34 => datomOk o
  | 0x36 => v.dproofOk h o
  | 0x37 => bOffset o 64
  | _ => true

/-- Semaphores of WAIT_SEM, SIG_SEM and a DSIGNAL's target: a job semaphore exactly for class 5 (R448). -/
def semsOk (h : CmdHdr) (c : PlateCmd) : Bool :=
  let job := h.cls = 5#4
  let ok (n : Nat) : Bool := isJobSem n = job
  (!h.waitEn || ok h.waitSem.toNat) && (!h.sigEn || ok h.sigSem.toNat) &&
    (match c with
     | .de 0x35 o => ok (gaSem o.addrA)
     | _ => true)

/-- Programs and classes: class 5 exactly in PROGRAM 2, which holds none of the commands of rows, phases and sessions (R445). -/
def programOk (prog : Nat) (h : CmdHdr) (c : PlateCmd) : Bool :=
  let op := cmdOpcode c
  (h.cls == 5#4) == (prog == 2) && (prog ≠ 2 || (!h.rowrel && !([0x31, 0x32, 0x33, 0x36, 0x37, 0x42, 0x43].contains op)))

/-- The scratchpad runs that a matrix command or VOP names, at row 0: offset and bytes (R180). -/
def cmdRuns (h : CmdHdr) (c : PlateCmd) : List (Nat × Nat) :=
  match c with
  | .mat 0x10 o => [(o.src.toNat, tileBytes h.srcfmt.toNat o.k.toNat o.n.toNat)]
  | .mat 0x11 o => [(o.src.toNat, planeBytes h.srcfmt.toNat o.m.toNat o.k.toNat)]
  | .mat _ o => [(o.src.toNat, planeBytes h.dstfmt.toNat o.m.toNat o.n.toNat), (o.aux.toNat, 64)]
  | .vec op o => vopRuns op h o 0
  | _ => []

/-- The group entries of the stream's partition. -/
def StreamView.groups (v : StreamView) : List GroupEntry :=
  ((v.plate.scratch.find? fun r => r.module = v.rec'.module && r.part.toNat = v.rec'.part.toNat).map (·.groups)).getD []

/-- MAX_ROWS of the stream's instance. -/
def StreamView.maxRows (v : StreamView) : Nat := ((v.plate.instances.find? fun r => r.inst = v.rec'.inst).map fun r => r.maxRows.toNat).getD 1

/-- Does every run, over the rows it may take, stay in groups that list the cluster (R180)? -/
def StreamView.runsOk (v : StreamView) (j : Nat) (h : CmdHdr) (c : PlateCmd) : Bool :=
  let more := match h.rowrel, v.loopOf j with
    | true, some l => (v.maxRows - 1) * l.2.2
    | _, _ => 0
  (cmdRuns h c).all fun r =>
    (v.groups.zipIdx).all fun g => r.2 = 0 || g.1.clusters.getLsbD v.rec'.owner.toNat || r.1 + more + r.2 ≤ 4194304 * g.2 || 4194304 * (g.2 + 1) ≤ r.1

/-- A branch lies in the stream and crosses no body (R67, R167). -/
def StreamView.branchOk (v : StreamView) (j : Nat) : Bool :=
  match v.target j with
  | none => true
  | some t =>
    0 ≤ t && t < v.len &&
      (match v.loopOf j with
       | some l => (l.1 : Int) < t && t ≤ l.1 + l.2.1 + 1
       | none => (v.loopOf t.toNat).isNone)

/-- Control commands (R67, R92). -/
def StreamView.ctlOk (v : StreamView) (j op : Nat) (o : CtlOps) : Bool :=
  let owner := v.rec'.owner.toNat
  match op with
  | 0x40 => o.cond.toNat ≤ 7 && o.kind.toNat ≤ 2 && o.sumcl.toNat < 4 && (owner = 4 || o.sumcl.toNat = owner) && v.branchOk j
  | 0x41 => v.branchOk j
  | 0x42 => 1 ≤ o.body.toNat && o.body.toNat ≤ 255 && (v.loopOf j).isNone && j + o.body.toNat + 1 < v.len
  | 0x43 => o.phase.toNat ≤ 2
  | _ => true

/-- The VOP at an index: the index, operation and operands. -/
def StreamView.vopAt (v : StreamView) (i : Nat) : Option (Nat × VOp × VecOps) :=
  match v.cmds[i]? with
  | some (.vec op o) => some (i, op, o)
  | _ => none

/-- The VOP before the command at an index. -/
def StreamView.prevVop (v : StreamView) (j : Nat) : Option (Nat × VOp × VecOps) := (List.range j).reverse.findSome? v.vopAt

/-- Does a BRS, JUMP, ROWLOOP or END stand strictly between two commands? -/
def StreamView.controlBetween (v : StreamView) (i j : Nat) : Bool :=
  (List.range j).any fun k => i < k &&
    (match v.cmds[k]? with
     | some (.ctl op _) => op ≠ 0x43
     | _ => false)

/-- Is a command the target of some branch of the stream? -/
def StreamView.isTarget (v : StreamView) (j : Nat) : Bool := (List.range v.len).any fun i => v.target i = some (j : Int)

/-- The work class of the command at an index. -/
def StreamView.clsAt (v : StreamView) (j : Nat) : BitVec 4 := ((v.hdrs[j]?).map (·.cls)).getD 0#4

/-- A VOP that names the pass register as a source follows its writer (R152). -/
def StreamView.passOk (v : StreamView) (j : Nat) (op : VOp) (o : VecOps) : Bool :=
  !vopNamesPass op o ||
    (match v.prevVop j with
     | none => false
     | some w =>
       vopWritesPass w.2.1 w.2.2 && !v.controlBetween w.1 j && !v.isTarget j && (v.loopOf w.1).map (·.1) = (v.loopOf j).map (·.1) &&
         v.clsAt w.1 = v.clsAt j)

/-- RAND and RANDU carry ROWREL inside a body (R159, R162). -/
def StreamView.randOk (v : StreamView) (j : Nat) (h : CmdHdr) (op : VOp) : Bool :=
  !(op = .rand || op = .randu) || (h.rowrel && (v.loopOf j).isSome)

/-- Every rule on the command at an index. -/
def StreamView.cmdOk (v : StreamView) (j : Nat) : Bool :=
  match v.hdrs[j]?, v.cmds[j]? with
  | some h, some c =>
    let e := h.engine.toNat
    let owner := v.rec'.owner.toNat
    h.timeout ≠ 0#24 && h.cls.toNat ≤ 5 && h.srcfmt.toNat ≤ 10 && h.dstfmt.toNat ≤ 10 && engineAllowed c e && ownEngine owner c e && semsOk h c &&
      programOk v.rec'.program.toNat h c &&
      (match c with
       | .nop => true
       | .mat op o => matOk h op o && v.runsOk j h c
       | .vec op o => vopOk h op o && v.passOk j op o && v.randOk j h op && v.runsOk j h c
       | .de op o => h.srcfmt = 0#4 && h.dstfmt = 0#4 && v.deOk h op o
       | .cinv o => h.srcfmt = 0#4 && h.dstfmt = 0#4 && cinvOk o
       | .ctl op o => h.srcfmt = 0#4 && h.dstfmt = 0#4 && v.ctlOk j op o)
  | _, _ => false

/-- The commands of a stream decoded, none if one does not decode or carries a GEN (R66, R67). -/
def viewOf (p : Plate) (r : StreamRec) : Option StreamView :=
  let rec decodeAll : List (BitVec 512) → Option (List PlateCmd)
    | [] => some []
    | w :: ws =>
      match decodeWord w with
      | .error _ => none
      | .ok c => if wordGen w ≠ 0 then none else (decodeAll ws).map (c :: ·)
  (decodeAll r.commands).map fun cs => ⟨p, r, r.commands.map wordHdr, cs⟩

/-- A stream meets every rule on its commands; its last command is END or JUMP. -/
def streamOk (p : Plate) (r : StreamRec) : Bool :=
  match viewOf p r with
  | none => false
  | some v =>
    (match v.cmds.getLast? with
     | some (.ctl op _) => op = 0x41 || op = 0x44
     | _ => false) &&
      (List.range v.len).all v.cmdOk

/-- The largest TIMEOUT of a class 0 command of an instance, in µs (R324). -/
def Plate.maxTimeout (p : Plate) (inst : BitVec 16) : Nat :=
  (((p.programs.filter fun r => r.inst = inst).flatMap (·.commands)).map fun w =>
    let h := wordHdr w
    if h.cls = 0#4 then h.timeout.toNat else 0).foldl max 0

/-- Does a stream hold attention commands? -/
def runsAttention (r : StreamRec) : Bool := r.commands.any fun w => wordOpcode w = 0x31 || wordOpcode w = 0x32 || wordOpcode w = 0x33

end Sys2Proof.Machine
end

