-- ==== Sys2Proof/Machine/Verify.lean ====
section
/-! DEFINITION. Verify.lean: the checks of a plate (spec/15 R389 to R403, spec/20 R503 to R511, and every rule of the other chapters under which a
plate fails verification). Each check answers true where its rule is met. -/
namespace Sys2Proof.Machine

/-! ## Helpers -/

/-- Are the elements of a list distinct? -/
def distinct {α : Type} [DecidableEq α] : List α → Bool
  | [] => true
  | x :: r => !r.contains x && distinct r

/-- Do the elements strictly ascend? -/
def ascends : List Nat → Bool
  | a :: b :: r => a < b && ascends (b :: r)
  | _ => true

/-- Are intervals, each a start and a length, pairwise disjoint? -/
def disjoint : List (Nat × Nat) → Bool
  | [] => true
  | x :: r => r.all (fun y => x.2 = 0 || y.2 = 0 || x.1 + x.2 ≤ y.1 || y.1 + y.2 ≤ x.1) && disjoint r

/-- A value within bounds. -/
def within' (lo v hi : Nat) : Bool := lo ≤ v && v ≤ hi

/-- The variant of a VARIANT code (Table 15.9). -/
def variantOf (c : BitVec 2) : Option Variant := if c = 0#2 then some .a16 else if c = 1#2 then some .m12 else if c = 2#2 then some .n12 else none

/-- Modules of a side. -/
def Plate.size (p : Plate) : Nat := p.domain.sizeM1.toNat + 1

/-- The variant of a module ID, the same on both sides (R390). -/
def Plate.variant (p : Plate) (m : Nat) : Variant := ((p.modules.find? fun e => e.module.toNat = m).bind fun e => variantOf e.variant).getD .a16

/-- Instances of a number. -/
def Plate.hasInst (p : Plate) (i : BitVec 16) : Bool := p.instances.any fun r => r.inst = i

/-- Do the blocks under a byte range of the memory space all lie in placement ranges of a sort, each block's home given? -/
def Plate.rangeIn (p : Plate) (a : GAddr) (n : Nat) (ok : PlaceEntry → Nat → Bool) : Bool :=
  let first := a.toNat / blockBytes
  gaSpace a = 0 && (n = 0 || (List.range ((a.toNat + n - 1) / blockBytes + 1 - first)).all fun k =>
    (p.placeOf (first + k)).any fun e => ok e.1 (e.1.homeOf e.2).1)

/-- Do blocks of USE 7 homed at a module hold a range? -/
def Plate.systemArea (p : Plate) (m : Nat) (a : GAddr) (n : Nat) : Bool := p.rangeIn a n fun e home => e.use = 7#4 && home = m

/-! ## Check 1: the header (Table 15.4) -/

/-- MAGIC, FORMAT, SECTIONS, LENGTH and SIG_OFFSET. -/
def headerOk (h : PlateHeader) : Bool :=
  h.magic = 0x505A4B53#32 && h.format = 1#16 && within' 1 h.sections.toNat 64 && h.length.toNat % 128 = 0 && h.length.toNat ≤ 67108864 &&
    h.sigOffset.toNat % 128 = 0 && h.length.toNat = h.sigOffset.toNat + 4736

/-! ## Check 6 -/

/-- Reserved bits, all zero (R9). -/
def Plate.noRsvd (p : Plate) : Bool :=
  !(p.header.rsvd || p.sections.any (·.rsvd) || p.domain.rsvd || p.modules.any (·.rsvd) || p.protection.setup.rsvd ||
    p.protection.slots.any (·.rsvd) || p.protection.changes.any (·.rsvd) || p.hostports.any (·.rsvd) || p.objects.any (·.rsvd) ||
    p.data.any (·.rsvd) || p.placement.any (·.rsvd) || p.interleave.any (fun r => r.rsvd || r.spreads.any (·.rsvd)) ||
    p.scratch.any (fun r => r.rsvd || r.groups.any (·.rsvd)) || p.instances.any (·.rsvd) || p.programs.any (·.rsvd)) &&
  !(p.kv.any (fun r => r.rsvd || r.tagRsvd || r.desc.rsvd) || p.slotplan.any (fun r => r.rsvd || r.route.any (·.rsvd)) || p.classes.any (·.rsvd) ||
    p.admission.rsvd || p.admRecs.any (·.rsvd) || p.symbols.any (·.rsvd) || p.validate.any (·.rsvd) || p.proof.rsvd ||
    p.tuning.any (fun t => t.rsvd || t.groups.any (·.rsvd) || t.ranges.any (·.rsvd)) || p.trace.any fun l => l.any fun t => t.rsvd || t.tagRsvd)

/-- Section types that every plate has (Table 15.6). -/
def requiredSections : List Nat := [0x01, 0x02, 0x03, 0x04, 0x05, 0x08, 0x09, 0x0A, 0x0B, 0x0C, 0x0D, 0x0F, 0x10, 0x13]

/-- R389: ascending types, each known and the required ones present, within the plate, disjoint; a section has the length of its content, but for
FIRMWARE, whose format is not given. -/
def Plate.sectionsOk (p : Plate) : Bool :=
  let types := p.sections.map (·.type.toNat)
  p.header.sections.toNat = p.sections.length && ascends types && types.all (fun t => within' 1 t 0x15) && requiredSections.all types.contains &&
    p.sections.all (fun e => e.offset.toNat % 128 = 0 && 128 + 32 * p.sections.length ≤ e.offset.toNat &&
      e.offset.toNat + e.length.toNat ≤ p.header.sigOffset.toNat && (e.type = 4#8 || e.length.toNat = (p.sectionBytes e.type.toNat).length)) &&
    disjoint (p.sections.map fun e => (e.offset.toNat, e.length.toNat)) && (types.contains 0x14 == p.tuning.isSome) && (types.contains 0x15 == p.trace.isSome)

/-- DOMAIN: Table 15.8, R47, R65, R291, the DEPUTY rule. -/
def Plate.domainOk (p : Plate) : Bool :=
  let d := p.domain
  let n := p.size
  within' 2000 d.period.toNat 200000 && within' 1 d.slotLen.toNat 1000 && within' 1 d.horizon.toNat 64 && d.streamLimit ≠ 0#24 && within' 600 d.powerLimit.toNat 1000 &&
    d.powerLimit.toNat ≤ p.protection.setup.ceiling.toNat && within' 60 d.startTimeout.toNat 3600 && d.ptpTransport ≠ 3#2 &&
    within' 1 d.gmCount.toNat 8 && d.gms.length = d.gmCount.toNat &&
    100000 ≤ d.slackNs && 1000000 + 220000 + d.slackNs + d.proofNs ≤ 1000 * d.period.toNat &&
    (n ≤ 8 || (n % 8 = 0 && within' 16 n 512)) && d.manager.toNat < n && d.deputy.toNat < n && ((d.deputy == d.manager) == (n == 1))

/-- The sides a plate covers. -/
def Plate.sides (p : Plate) : List Bool := if p.admission.twinned = 1#8 then [false, true] else [false]

/-- MODULES: R393, R390, and one port count (R403). -/
def Plate.modulesOk (p : Plate) : Bool :=
  let ids := p.modules.map fun e => (e.side, e.module.toNat)
  distinct ids && ids.length = p.size * p.sides.length && ids.all (fun i => p.sides.contains i.1 && i.2 < p.size) &&
    p.modules.all fun e => (variantOf e.variant).any fun v => v = p.variant e.module.toNat && v.ports = (p.variant 0).ports

/-- The setup record's ranges and the counts of what follows it (Table 20.3, R503). -/
def Plate.setupOk (p : Plate) : Bool :=
  let t := p.protection.setup
  let bound : Bool := t.tenant ≠ 0#512
  within' 600 t.ceiling.toNat 1000 && t.clients.toNat = p.protection.clients.length && t.clients.toNat ≤ 256 && (!bound || t.clients ≠ 0#16) &&
    t.slots.toNat = p.protection.slots.length && t.slots.toNat = (if bound then p.modules.length else 0) && (bound || t.epoch = 0#16) &&
    t.changes.toNat = p.protection.changes.length && t.changes.toNat ≤ 8 && ascends (p.protection.clients.map (·.toNat)) &&
    ((p.protection.slots.zip p.modules).all fun x => x.1.module = x.2.module && x.1.side = x.2.side)

/-- HOSTPORT: R394, R421, R423. -/
def Plate.hostportsOk (p : Plate) : Bool :=
  distinct (p.hostports.map fun h => (h.side, h.module.toNat)) && p.hostports.length = p.modules.length &&
    p.hostports.all fun h =>
      p.modules.any (fun m => m.module = h.module && m.side = h.side) && (h.ipv6 ≠ 0#128 || h.ipv4 ≠ 0#32) && h.ringBase.toNat % 1024 = 0 &&
        p.systemArea h.module.toNat h.ringBase ((34 + p.proof.landingMib.toNat) * 1048576) &&
        p.hostports.all fun g => g.module ≠ h.module || g.ringBase = h.ringBase

/-- OBJECTS: R395. -/
def Plate.objectsOk (p : Plate) : Bool :=
  p.objects.all fun o =>
    (o.kind = 1#4 || (o.kind = 2#4 && o.length = 4194304#64)) &&
      (List.range (ceilDiv o.length.toNat blockBytes)).all fun i => (p.placeOf (o.blockBase.toNat + i)).any fun e => e.1.use = o.kind

/-- The bytes that DATA gives a range, none where it does not cover it. -/
def Plate.dataAt (p : Plate) (a n : Nat) : Option (List Byte) :=
  let mine := p.data.filter fun d => d.dest.toNat < a + n && a < d.dest.toNat + d.bytes.length
  let cells := mine.map fun d => (d.dest.toNat, d.bytes)
  if (mine.map fun d => min (a + n) (d.dest.toNat + d.bytes.length) - max a d.dest.toNat).sum = n then
    some (((cells.insertionSort fun x y => x.1 ≤ y.1).flatMap fun c => (c.2.drop (a - c.1)).take (a + n - max a c.1)))
  else none

/-- A codeword element is finite and at most 256 in magnitude (R196). -/
def codeElemOk (b : List Byte) : Bool := leNat b % 32768 ≤ 0x4380

/-- The codebook tables of a KV descriptor for its rates: base and bytes (R196). -/
def KvDesc.tables (d : KvDesc) : List (GAddr × Nat) :=
  let slabs := d.layers.toNat * d.kvHeads.toNat * 2
  ([(0, d.cb05, 8192), (1, d.cb1, 4096), (2, d.cb2, 2048)].filter fun t => d.rates.getLsbD t.1).map fun t => (t.2.1, slabs * t.2.2)

/-- DATA: R396, R196. -/
def Plate.dataOk (p : Plate) : Bool :=
  p.data.all (fun d => gaSpace d.dest = 0 && d.dest.toNat % 128 = 0 && p.rangeIn d.dest d.bytes.length fun e _ => e.use = 5#4 || e.use = 7#4) &&
    disjoint (p.data.map fun d => (d.dest.toNat, d.bytes.length)) &&
    p.kv.all fun k => k.desc.tables.all fun t => (p.dataAt t.1.toNat t.2).any fun bs => (chunksOf 2 (t.2 / 2) bs).all codeElemOk

/-- The frames that a placement entry takes: module and frame of each block. -/
def PlaceEntry.frames (e : PlaceEntry) : List (Nat × Nat) := (List.range e.blockCount.toNat).map e.homeOf

/-- A placement entry alone: R257, Table 10.7. -/
def Plate.placeOk (p : Plate) (e : PlaceEntry) : Bool :=
  let u := e.use.toNat
  within' 1 u 7 && e.blockCount ≠ 0#32 && e.module.toNat + e.mods.toNat < p.size && e.blockBase.toNat + e.blockCount.toNat ≤ p.domain.dirBlocksM1.toNat + 1 &&
    (u < 6 || (e.pinned && e.mods = 0#10)) && (!(u = 3 || u = 4) || !e.pinned) &&
    (if e.inst = 0xFFFF#16 then !(within' 3 u 5) else p.hasInst e.inst)

/-- The spreads of a module. -/
def Plate.spreads (p : Plate) (m : Nat) : List Spread := (p.interleave.filter fun r => r.module.toNat = m).flatMap (·.spreads)

/-- PLACEMENT: R257. -/
def Plate.placementOk (p : Plate) : Bool :=
  let frames := p.placement.flatMap PlaceEntry.frames
  p.placement.all p.placeOk && disjoint (p.placement.map fun e => (e.blockBase.toNat, e.blockCount.toNat)) && distinct frames &&
    frames.all (fun f => (p.spreads f.1).any fun sp => sp.holds f.2) && p.placement.length ≤ 65536 &&
    (List.range p.size).all fun m => p.placement.any fun e =>
      e.use = 6#4 && e.module.toNat = m && ceilDiv ((p.domain.dirBlocksM1.toNat + 1) * 4) blockBytes ≤ e.blockCount.toNat

/-- A spread's offsets in each member partition (R224). -/
def Spread.offsets (sp : Spread) (n : Nat) : Nat × Nat := (sp.offsetBase.toNat, ceilDiv (sp.frameCount.toNat * 16384) (n * sp.members.length))

/-- INTERLEAVE: R224, R390, R403. -/
def Plate.interleaveOk (p : Plate) : Bool :=
  p.interleave.map (·.module.toNat) = List.range p.size &&
    p.interleave.all fun r =>
      let v := p.variant r.module.toNat
      r.part = 0x1F#5 && r.spreads.length ≤ 64 && disjoint (r.spreads.map fun sp => (sp.frameBase.toNat, sp.frameCount.toNat)) &&
        r.spreads.all (fun sp => sp.parts ≠ 0#16 && sp.parts.toNat < 2 ^ v.parts && (sp.offsets v.subs).1 + (sp.offsets v.subs).2 ≤ subGranules) &&
        (List.range v.parts).all fun q => disjoint ((r.spreads.filter fun sp => sp.members.contains q).map fun sp => sp.offsets v.subs)

/-- Instances of a module, ascending. -/
def Plate.instsOf (p : Plate) (m : Nat) : List InstanceRec :=
  (p.instances.filter fun r => r.modules.contains (BitVec.ofNat 10 m)).insertionSort fun a b => a.inst.toNat ≤ b.inst.toNat

/-- Bytes of one batch area (R180). -/
def InstanceRec.areaBytes (r : InstanceRec) : Nat := (64 * (r.maxRows.toNat + 1) + 255) / 256 * 256

/-- Do groups of kind 5 hold a scratchpad range? -/
def inKind5 (gs : List GroupEntry) (a n : Nat) : Bool :=
  a + n ≤ spBytes && (List.range ((a + n - 1) / 4194304 + 1 - a / 4194304)).all fun k => (gs[a / 4194304 + k]?).any fun g => g.kind = 5#4

/-- SCRATCH: R179, R180, R403. -/
def Plate.scratchOk (p : Plate) : Bool :=
  p.scratch.map (fun r => (r.module.toNat, r.part.toNat)) =
      ((List.range p.size).flatMap fun m => (List.range (p.variant m).parts).map fun q => (m, q)) &&
    p.scratch.all fun r =>
      let insts := p.instsOf r.module.toNat
      let areas := (r.batchBase.zip insts).map fun b => (b.1.toNat, 2 * b.2.areaBytes)
      r.groups.length = 16 && r.batchBase.length = insts.length &&
        r.groups.all (fun g => g.kind.toNat ≤ 5 && (g.kind = 0#4 || g.clusters ≠ 0#4) &&
          (if g.kind = 1#4 then (p.objects[g.image.toNat - 1]?).any (fun o => o.kind = 2#4) && g.image ≠ 0#16 else g.image = 0#16)) &&
        areas.all (fun a => a.1 % 256 = 0 && inKind5 r.groups a.1 a.2) && disjoint areas

/-- INSTANCES: R397. -/
def Plate.instancesOk (p : Plate) : Bool :=
  distinct (p.instances.map (·.inst)) && p.instances.all fun r =>
    r.inst ≠ 0xFFFF#16 && r.modFirst.toNat + r.modCountM1.toNat < p.size && r.modules.contains r.lead && within' 1 r.maxRows.toNat 4096

/-- Streams of an instance, program, module and partition by owner. -/
def Plate.streamsOf (p : Plate) (i : BitVec 16) (prog m q : Nat) : List Nat :=
  (p.programs.filter fun r => r.inst = i && r.program.toNat = prog && r.module.toNat = m && r.part.toNat = q).map (·.owner.toNat)

/-- The streams of one program on every partition of an instance: one die stream, at most one per cluster. -/
def Plate.programWhole (p : Plate) (r : InstanceRec) (prog : Nat) : Bool :=
  r.modules.all fun m => (List.range (p.variant m.toNat).parts).all fun q =>
    let o := p.streamsOf r.inst prog m.toNat q
    o.contains 4 && distinct o

/-- Does an instance have PROGRAM 2 streams? -/
def Plate.hasJob (p : Plate) (i : BitVec 16) : Bool := p.programs.any fun r => r.inst = i && r.program = 2#2

/-- PROGRAMS: R398, and R67's rules on the commands. -/
def Plate.programsOk (p : Plate) : Bool :=
  p.programs.all (fun r => p.hasInst r.inst && r.program ≠ 3#2 && r.owner.toNat ≤ 4 && r.module.toNat < p.size &&
      (p.instances.any fun i => i.inst = r.inst && i.modules.contains r.module) &&
      r.part.toNat < (p.variant r.module.toNat).parts && r.commands ≠ [] && r.dest.toNat % 64 = 0 &&
      p.systemArea r.module.toNat r.dest (64 * r.commands.length) && streamOk p r) &&
    p.instances.all fun r => p.programWhole r 0 && p.programWhole r 1 && (!p.hasJob r.inst || p.programWhole r 2)

/-- A KV descriptor: R187. -/
def KvDesc.ok (d : KvDesc) (size : Nat) : Bool :=
  let lo := d.pgMin.toNat
  let hi := d.pgMax.toNat
  d.layers ≠ 0#16 && d.kvHeads ≠ 0#8 && within' 1 d.pagesMax.toNat 16384 && (d.expFmt = 1#4 || d.expFmt = 5#4 || d.expFmt = 7#4) &&
    6 ≤ lo && hi ≤ 12 && lo ≤ hi && (16 < size || within' lo 8 hi) &&
    d.selTop.toNat + d.selRecent.toNat + 1 ≤ d.pagesMax.toNat && d.repsLog2.toNat ≤ 3 &&
    d.walkSlots ≠ 0#16 && d.walkSlots.toNat % 1024 = 0 && 2 ^ hi ≤ d.walkSlots.toNat && d.rates ≠ 0#3 &&
    d.tables.all (fun t => t.1 ≠ 0#56) && d.ringIndex.toNat < d.ringSize.toNat && d.rowStride.toNat % 128 = 0

/-- Two copies of a descriptor differ at most in RING_SIZE and RING_INDEX (R186). -/
def KvDesc.sameAs (a b : KvDesc) : Bool := { a with ringSize := b.ringSize, ringIndex := b.ringIndex } = b

/-- KV: R186, R187, R390, R403. -/
def Plate.kvOk (p : Plate) : Bool :=
  let tags := p.kv.map fun r => (r.module.toNat * 32 + r.part.toNat) * 65536 + r.inst.toNat
  distinct tags && ascends (((p.kv.map fun r => r.module.toNat * 32 + r.part.toNat).splitBy (· == ·)).filterMap List.head?) &&
    p.kv.all (fun r => r.module.toNat < p.size && r.part.toNat < (p.variant r.module.toNat).parts && p.hasInst r.inst && r.desc.ok p.size &&
      p.kv.all fun q => q.inst ≠ r.inst || q.desc.sameAs r.desc) &&
    p.programs.all (fun r => !runsAttention r || p.kv.any fun k => k.inst = r.inst && k.module = r.module && k.part.toNat = r.part.toNat) &&
    p.classes.all fun c => p.kv.any fun k => k.inst = c.inst

/-! ### The slot plan (R52, R303, R399) -/

/-- The route of R296 from a module to another: transmitting modules and logical ports; fuel 4 covers its three hops. -/
def routeHops (n src dst : Nat) : Nat → Nat → List (Nat × Nat)
  | 0, _ => []
  | k + 1, cur =>
    if cur = dst then []
    else
      let j := minimalPort (groups n) cur src dst
      match neighbour n cur j with
      | some f => (cur, j) :: routeHops n src dst k f.1
      | none => [(cur, j)]

/-- The logical port of a physical port of a module. -/
def Plate.logical (p : Plate) (m port : Nat) : Nat := if (p.variant m).linkDies = 8 then port / 2 else port

/-- Slots of a stroke (R51). -/
def DomainRec.slots (d : DomainRec) : Nat := (1000 * d.period.toNat - 220000 - d.slackNs - d.proofNs) / (1000 * d.slotLen.toNat)

/-- One planned transfer. -/
def Plate.transferOk (p : Plate) (r : PlanRec) : Bool :=
  let src := gaModule r.src
  let dst := gaModule r.dst
  let n := 128 * r.total.toNat
  let route := routeHops p.size src dst 4 src
  let slots := r.route.map (·.slot.toNat)
  gaSpace r.src = 1 && gaSpace r.dst = 1 && gaLayoutOk r.src && gaLayoutOk r.dst && src < p.size && dst < p.size &&
    gaPart r.src < (p.variant src).parts && gaPart r.dst < (p.variant dst).parts && gaSpOff r.src + n ≤ spBytes && gaSpOff r.dst + n ≤ spBytes &&
    p.hasInst r.inst && within' 1 r.hops.toNat 3 && r.hops.toNat = r.route.length && r.hops.toNat = route.length &&
    (r.route.zip route).all (fun h => h.1.module.toNat = h.2.1 && h.1.port.toNat < (p.variant h.2.1).ports &&
      !(p.variant h.2.1).isTwinPort h.1.port.toNat && p.logical h.2.1 h.1.port.toNat = h.2.2 && (neighbour p.size h.2.1 h.2.2).isSome) &&
    slots.all (fun k => k < p.domain.slots) && ascends slots && n ≤ (1000 * p.domain.slotLen.toNat - 80) * 200

/-- The time a transfer spends in VC0 buffers between hops: module and link die, first and last slot, bytes (R303). -/
def PlanRec.stays (r : PlanRec) : List ((Nat × Nat) × Nat × Nat × Nat) :=
  (r.route.zip (r.route.drop 1)).map fun h =>
    ((h.2.module.toNat, h.2.port.toNat / 4), h.1.slot.toNat, h.2.slot.toNat, 128 * r.total.toNat)

/-- SLOTPLAN: R52, R303, R399. -/
def Plate.slotplanOk (p : Plate) : Bool :=
  let stays := p.slotplan.flatMap PlanRec.stays
  p.slotplan.length ≤ 65536 && p.slotplan.all p.transferOk &&
    distinct (p.slotplan.flatMap fun r => r.route.map fun h => (h.module.toNat, h.port.toNat, h.slot.toNat)) &&
    stays.all fun x => ((stays.filter fun y => y.1 = x.1 && y.2.1 ≤ x.2.1 && x.2.1 ≤ y.2.2.1).map fun y => y.2.2.2).sum ≤ 8388608

/-! ### Classes, admission, symbols, validation, proofs, tuning, trace -/

/-- A contract class: R322. -/
def Plate.classOk (p : Plate) (c : ClassEntry) : Bool :=
  c.promptMax.toNat + c.outputMax.toNat ≤ 2 ^ 31 && c.cadenceMin ≠ 0#8 && c.cadenceMin.toNat ≤ c.cadenceMax.toNat && c.recovery ≠ 0#8 &&
    c.draftsMax.toNat ≤ 7 && c.rate ≠ 3#2 && (p.kv.filter fun k => k.inst = c.inst).all (fun k => k.desc.rates.getLsbD c.rate.toNat) &&
    c.chunkMin ≠ 0#16 && c.chunkMin.toNat ≤ c.chunkMax.toNat && c.chunkMax.toNat ≤ 511 && p.hasInst c.inst

/-- The admission header: R323. -/
def Plate.admissionOk (p : Plate) : Bool :=
  let a := p.admission
  let rt := a.resTwin.toNat
  let rc := a.resCatch.toNat
  let t := 1000 * p.domain.period.toNat
  let k := t - 220000 - p.domain.slackNs
  10 ≤ rc && rt + rc ≤ 900 && a.twinned.toNat ≤ 1 && ((rt == 0) == (a.twinned == 0#8)) && within' 1 a.fabShare.toNat 1000 && a.thermalBand.toNat ≤ 2 &&
    1000 * t ≤ p.domain.horizon.toNat * (1000 * t - k * (1000 - rt - rc))

/-- The instance admission records: one per instance, cost tables whole, DETECT_BOUND (R324). -/
def Plate.admRecsOk (p : Plate) : Bool :=
  distinct (p.admRecs.map (·.inst)) && p.instances.all (fun i => p.admRecs.any fun r => r.inst = i.inst) &&
    p.admRecs.all fun r => p.hasInst r.inst && r.costs.length = 192 && 9000 + p.maxTimeout r.inst ≤ r.detect.toNat

/-- SYMBOLS: R400. -/
def Plate.symbolsOk (p : Plate) : Bool :=
  distinct (p.symbols.map fun r => (r.kind.toNat, r.id.toNat)) && p.symbols.all fun r =>
    r.format.toNat ≤ 10 && (r.kind = 1#8 || (r.kind = 2#8 && r.id.toNat < 65536 && r.addr = 0#56 && r.length = 0#32))

/-- VALIDATE: R401. -/
def Plate.validateOk (p : Plate) : Bool :=
  p.validate.all fun v => v.prompt ≠ [] && within' 1 v.output.toNat 4096 && v.expected.length = v.output.toNat && v.matchN.toNat ≤ v.output.toNat &&
    (p.classes[v.cclass.toNat]?).any fun c => c.inst = v.inst && v.prompt.length ≤ c.promptMax.toNat

/-- PROOF: Table 16.6. -/
def Plate.proofOk (p : Plate) : Bool :=
  let r := p.proof
  r.flashEvery ≠ 0#16 && ((r.storeEvery == 0#16) == (r.storeKey == 0#512)) && r.landingMib ≠ 0#16

/-- Blocks of USE 5 that an instance owns. -/
def Plate.jobBlocks (p : Plate) (i : BitVec 16) (a : GAddr) (n : Nat) : Bool := p.rangeIn a n fun e _ => e.use = 5#4 && e.inst = i

/-- A nonnegative finite FP32 value, +0 or more. -/
def finitePlus (w : Word32) : Bool := w.toNat < 0x7F800000

/-- A parameter group: R443, R444. -/
def GroupRec.ok (g : GroupRec) : Bool :=
  g.beta1.toNat < 0x3F800000 && g.beta2.toNat < 0x3F800000 && finitePlus g.eps && g.eps ≠ 0#32 && (finitePlus g.decay || g.decay = 0x80000000#32) &&
    g.kind.toNat ≤ 1 && within' 1 g.points.length 64 && (g.points.head?.any fun q => q.step = 0#32) && ascends (g.points.map (·.step.toNat)) &&
    g.points.all fun q => finitePlus q.lr

/-- TUNING: R443, R444. -/
def Plate.tuningOk (p : Plate) : Bool :=
  match p.tuning with
  | none => !p.programs.any fun r => r.program = 2#2
  | some t =>
    let head := 128 + 64 * t.groups.length
    p.hasInst t.inst && p.hasJob t.inst && t.stepsMax ≠ 0#32 && t.rootEvery ≠ 0#16 && within' 1 t.groups.length 64 && within' 1 t.ranges.length 1024 &&
      t.jobBase.toNat % 128 = 0 && p.jobBlocks t.inst t.jobBase head &&
      t.ranges.all (fun r => r.addr.toNat % 128 = 0 && r.granules ≠ 0#32 && p.jobBlocks t.inst r.addr (128 * r.granules.toNat)) &&
      disjoint ((t.jobBase.toNat, head) :: t.ranges.map fun r => (r.addr.toNat, 128 * r.granules.toNat)) &&
      !(t.every1 = 0#16 && t.every2 = 0#16 && t.every3 = 0#16) && (t.every1 = 0#16 || p.admission.twinned = 1#8) &&
      (t.every3 = 0#16 || p.proof.storeKey ≠ 0#512) && t.groups.all GroupRec.ok

/-- A trace entry: R534. -/
def Plate.traceOk1 (p : Plate) (t : TraceEntry) : Bool :=
  let m := t.module.toNat
  let ovf := t.ovfGib.toNat * 1073741824
  let dump := t.dumpMib.toNat * 1048576
  t.ovfGib.toNat ≤ 8 && t.ovfBase.toNat % blockBytes = 0 && t.dumpBase.toNat % blockBytes = 0 &&
    (ovf = 0 || p.systemArea m t.ovfBase ovf) && (dump = 0 || p.systemArea m t.dumpBase dump) &&
    disjoint [(t.ovfBase.toNat, ovf), (t.dumpBase.toNat, dump)] && t.postCount.toNat < t.capacity && t.trigKind.toNat ≤ 4 &&
    !(t.trigKind = 0#8 && t.mode) && (t.sampleUs = 0#32 || within' 100 t.sampleUs.toNat 1000000) &&
    p.symbols.all fun r => r.kind ≠ 1#8 || r.length.toNat * 128 ≤ dump

/-- TRACE: R534. -/
def Plate.traceOk (p : Plate) : Bool := p.trace.all fun l => l.map (·.module.toNat) = List.range p.size && l.all p.traceOk1

/-- Check 6 of R402. -/
def Plate.structureOk (p : Plate) : Bool :=
  p.noRsvd && p.sectionsOk && p.domainOk && p.modulesOk && p.setupOk && p.hostportsOk && p.objectsOk && p.dataOk && p.placementOk && p.interleaveOk &&
    p.scratchOk && p.instancesOk && p.programsOk && p.kvOk && p.slotplanOk && p.classes.all p.classOk && within' 1 p.classes.length 256 &&
    p.admissionOk && p.admRecsOk && p.symbolsOk && p.validateOk && p.proofOk && p.tuningOk && p.traceOk

/-! ## Check 5: the protection section (R507 to R510) -/

/-- The tenant root that a key slot opens to (R504). -/
def State.openSlot (s : State) (p : Plate) : Option (BitVec 256) :=
  let mine := (p.modules.zip p.protection.slots).find? fun x => x.1.identity = s.label.identity
  match mine with
  | none => none
  | some x =>
    let ss := Config.epochDecaps s.sec.seed x.2.ctext
    let kek := Config.sha3 (leBytes 32 ss.toNat ++ ascii "SKZ bind" ++ leBytes 64 s.label.identity.toNat ++ leBytes 2 p.protection.setup.epoch.toNat)
    Config.openRoot (kek.extractLsb' 0 256) (x.2.bytes.take 8) x.2.root

/-- R509: a tightening alters only the fields of Table 20.2 in the directions shown. -/
def isTightening (old new : Setup) (oldClients newClients : List (BitVec 512)) : Bool :=
  let ends : Bool := new.tenant = 0#512 && old.tenant ≠ 0#512
  new.operator = old.operator && new.plateSigner = old.plateSigner && new.members = old.members && new.ceiling.toNat ≤ old.ceiling.toNat &&
    new.obsLevel.toNat ≤ old.obsLevel.toNat && (new.linkEnc || !old.linkEnc) &&
    (new.notAfter = old.notAfter || (new.notAfter ≠ 0#64 && (old.notAfter = 0#64 || new.notAfter.toNat < old.notAfter.toNat))) &&
    (if ends then new.epoch = 0#16 && new.clients = 0#16 && new.slots = 0#16
     else new.tenant = old.tenant && new.epoch = old.epoch && new.slots = old.slots && newClients.all oldClients.contains)

/-- Does a key hold a role: its digest is that of the setup before the record, or of the NEW setup where the earlier names none (R508)? -/
def holdsRole (before after : BitVec 512) (key : BitVec 20736) : Bool := keyHash key = (if before = 0#512 then after else before)

/-- The signatures of a change record (R507, R508), roles read from the setup before it and the plate's. -/
def changeSigned (before after : Setup) (r : ChangeRec) : Bool :=
  let old := if r.old = 0#512 then Setup.zero else before
  let op (k : BitVec 20736) : Bool := holdsRole old.operator after.operator k
  let ten (k : BitVec 20736) : Bool := holdsRole old.tenant after.tenant k
  let bound : Bool := old.tenant ≠ 0#512 || after.tenant ≠ 0#512
  let first := Config.mldsaVerify r.pk1 (signBytes "SKZ change" (Config.sha3 r.head)) r.sig1
  let second := Config.mldsaVerify r.pk2 (signBytes "SKZ countersign" (Config.sha3 r.signed)) r.sig2
  let noSecond : Bool := r.pk2 = 0#20736 && r.sig2 = 0#37016
  let role (n : BitVec 8) (k : BitVec 20736) : Bool := if n = 1#8 then op k else n = 2#8 && bound && ten k
  first && role r.first r.pk1 &&
    (if r.kind = 2#8 then noSecond
     else r.kind = 1#8 && (if bound then second && role (if r.first = 1#8 then 2#8 else 1#8) r.pk2 else noSecond && r.first = 1#8))

/-- The change records in section order from a counter and digest: the counter and digest they end at, none for a reject (R510). -/
def State.changes (s : State) (p : Plate) : List ChangeRec → BitVec 64 → BitVec 512 → Bool → Option (BitVec 64 × BitVec 512)
  | [], c, d, _ => some (c, d)
  | r :: rest, c, d, firstNew =>
    if r.counter.toNat ≤ c.toNat && firstNew then changes s p rest c d true
    else
      let t := p.protection
      let above := t.changes.countP fun x => s.sec.counter.toNat < x.counter.toNat
      if r.counter ≠ c + 1#64 || r.old ≠ d || !changeSigned s.sec.setup t.setup r then none
      else if r.kind = 2#8 && (above ≠ 1 || !isTightening s.sec.setup t.setup s.sec.clients t.clients) then none
      else changes s p rest (c + 1#64) r.new false

/-- Check 5 of R402: the counter that the section leads to and the tenant root, none for a reject. A module whose protection state is as
manufactured has digest zero (OLD is zero in a module's first record). Once EPOCH is used up no binding is accepted (R502). -/
def State.protectionOk (s : State) (p : Plate) : Option (BitVec 64 × Option (BitVec 256)) :=
  let t := p.protection
  let d0 := if s.sec.counter = 0#64 then 0#512 else setupDigest s.sec.setup s.sec.clients
  match s.changes p t.changes s.sec.counter d0 true with
  | none => none
  | some (c, d) =>
    if d ≠ setupDigest t.setup t.clients || t.setup.members ≠ Config.sha3 (p.sectionBytes 0x02) then none
    else if t.setup.tenant = 0#512 then some (c, none)
    else if s.sec.spent || t.setup.epoch ≠ s.sec.epoch || (t.setup.tenant ≠ s.sec.setup.tenant && s.sec.root.isSome) then none
    else (s.openSlot p).map fun k => (c, some k)

/-! ## The whole verification (R402, Table 15.20) -/

/-- The plate signer's digest in force (R391): that of the committed setup, or for a module never set up the plate's own (notes/assumptions/47). -/
def State.signer (s : State) (p : Plate) : BitVec 512 := if s.sec.setup.plateSigner = 0#512 then p.protection.setup.plateSigner else s.sec.setup.plateSigner

/-- FIRMWARE's Plovdo signature (R391). -/
def State.firmwareOk (s : State) (f : Firmware) : Bool := Config.mldsaVerify s.label.plovdo (leBytes 64 f.measure.toNat) f.sig

/-- What verification gives: the failure code of the first check that fails, or what check 5 accepted. -/
def State.verify (s : State) (slot : Option Plate) : Except Nat (Plate × BitVec 64 × Option (BitVec 256)) :=
  match slot with
  | none => .error 0x81
  | some p =>
    if !headerOk p.header then .error 0x81
    else if keyHash p.signer ≠ s.signer p || !Config.mldsaVerify p.signer (signBytes "SKZ plate" p.measure) p.sig then .error 0x82
    else if !(p.sections.any fun e => e.type = 4#8 && e.offset.toNat + e.length.toNat ≤ p.header.length.toNat) ||
        !p.firmware.any s.firmwareOk then .error 0x83
    else if p.header.serial.toNat < s.boot.record.floor.toNat then .error 0x84
    else match s.protectionOk p with
      | none => .error 0x85
      | some (c, root) =>
        if !p.structureOk then .error 0x86
        else match p.modules.find? fun m => m.identity = s.label.identity with
          | none => .error 0x87
          | some m => if m.variant.toNat ≠ s.label.variant.code then .error 0x88 else .ok (p, c, root)

end Sys2Proof.Machine
end

