-- ==== Sys2Proof/Machine/Startup.lean ====
section
/-! DEFINITION. Startup.lean: start from the plate: slot selection and verification, memory training, join, directory, objects, validation,
serving and the start timeout (spec/15 R404 to R416). -/
namespace Sys2Proof.Machine

/-! ## Clocks -/

/-! ## Steps 1 to 3: slot, plate, verification (R404, R415, R511) -/

/-- The commit of a verified plate's outcome: COUNTER, SETUP, the client list, and ROOT when the binding is new; a setup without tenant while
ROOT is present ends the binding (R511, R512). -/
def State.commitSetup (s : State) (p : Plate) (c : BitVec 64) (root : Option (BitVec 256)) : State :=
  let t := p.protection
  let s := { s with sec := { s.sec with counter := c, setup := t.setup, clients := t.clients } }
  if t.setup.tenant = 0#512 then (if s.sec.root.isSome then s.destroyKeys else s)
  else if s.sec.root.isNone then { s with sec := { s.sec with root := root } } else s

/-- A verified plate in effect: step 4 and 5 begin; roles as the plate gives them; every port to be trained. -/
def State.adoptPlate (s : State) (p : Plate) (slot : Nat) : State :=
  { s with
    boot := { s.boot with plate := some p, slot := slot, step := 4, code := 0x04#8 },
    ae := { s.ae with manager := p.domain.manager, deputy := if p.domain.deputy = p.domain.manager then none else some p.domain.deputy },
    fab := { s.fab with ports := s.fab.ports.map fun _ => { PortState.reset with phase := .detect, phaseAt := s.time.mono } } }

/-- A start from one slot: the failure code, or the module with its plate in effect. -/
def State.tryPlate (s : State) (slot : Nat) : Except Nat State :=
  match s.verify (if slot = 0 then s.boot.slot0 else s.boot.slot1) with
  | .error c => .error c
  | .ok (p, c, root) => .ok ((s.commitSetup p c root).adoptPlate p slot)

/-- Steps 2 and 3 (R415): the pending slot first; if its plate fails, the record notes it and the module starts once more from ACTIVE. -/
def State.selectPlate (s : State) : State :=
  let r := s.boot.record
  let active := r.active.toNat % 2
  if r.pending then
    match s.tryPlate (1 - active) with
    | .ok t => t
    | .error c =>
      let s := s.writeBoot fun r => { r with lastFail := BitVec.ofNat 8 c, lastSlot := BitVec.ofNat 8 (1 - active), pending := false }
      let s := { s with boot := { s.boot with fellBack := true } }
      match s.tryPlate active with
      | .ok t => t
      | .error c => s.hold c
  else
    match s.tryPlate active with
    | .ok t => t
    | .error c => s.hold c

/-- Start begins (step 1): nothing volatile survives; an erasure that was interrupted completes before step 2 (R404, R416, R512). -/
def State.beginStart (s : State) : State :=
  let s := s.restart
  let s := { s with boot := { s.boot with standing := .starting, step := 1, code := 0x01#8, startAt := s.time.mono } }
  let s := if s.sec.destroyed then s.destroyKeys else s
  s.selectPlate

/-- Main rails up: the energy counter, averages and stages begin anew; what ended with the rails on is to be recorded (R483, R496). -/
def State.railsUp (s : State) : State :=
  { s with pwr := { s.pwr with rails := true, good := true, energy := 0#64, avgs := [], pstage := 0, tstage := 0, over1 := false,
                               over10 := false, warning := false, floorAt := none, refused := false,
                               open_ := s.pwr.open_.filter fun t => t.reason = 7#8 || t.reason = 8#8 } }

/-- The records of a trip or supply reset, which end with main power good (Table 19.6). -/
def State.closePower (s : State) : State :=
  s.pwr.open_.foldl (fun s t => s.closeThrottle t.reason.toNat t.die.toNat) s

/-- MAIN_POWER_GOOD (R404, R491): declared no earlier than 100 ms after the auxiliary domain started (R549), and not while a claim on the flash is
granted (R552) or the trip latch holds the rails off (R495). -/
def execMainPowerGood (s : State) : Res :=
  .next (if !s.pwr.aux || s.pwr.grant || s.pwr.latch || s.pwr.good then s
    else ((s.reachMono (s.pwr.auxAt.toNat + 100000000)).railsUp.beginStart).closePower)

/-! ## Step 4 to 7: memory training (R234, R236, R387, R404, R405, R514) -/

/-- A subchannel found at start excluded: it never enters service, and every granule lies at its patch location (R236). -/
def State.excludeSub (s : State) (g : Nat) : State :=
  let o := subOwner s.label.variant g
  if (s.part o.1).mapOuts.any fun m => m.sub = o.2 then s
  else (s.modPart o.1 fun p => { p with mapOuts := p.mapOuts ++ [⟨o.2, true, subGranules, true, true⟩] }).level (modCtr 0x0034 g) 2

/-- Global subchannel of a health record entry. -/
def HealthEntry.sub (e : HealthEntry) : Nat := 48 * e.stack.toNat + e.subch.toNat

/-- Do two entries name the same row? -/
def HealthEntry.sameRow (a b : HealthEntry) : Bool := a.stack = b.stack && a.subch = b.subch && a.bank = b.bank && a.row = b.row

/-- A retired row repaired: the spare row holds its bits, the stand-in is free (R234). -/
def State.repairRow (s : State) (e : HealthEntry) : State :=
  (s.modSub e.sub fun x => { x with banks := SMap.insert x.banks e.bank.toNat ⟨none, true, some e.row.toNat⟩ }).health 2 e.sub e.bank.toNat e.row.toNat

/-- A repair of an earlier start in force. -/
def State.knownRepair (s : State) (e : HealthEntry) : State :=
  s.modSub e.sub fun x => { x with banks := SMap.insert x.banks e.bank.toNat ⟨none, true, some e.row.toNat⟩ }

/-- What the health record gives at start (R405): map-outs, repairs already made, and retirements, which are repaired now. -/
def State.rebuildHealth (s : State) : State :=
  let log := s.boot.health
  let done (e : HealthEntry) : Bool := log.any fun x => x.kind = 2#4 && x.sameRow e
  log.foldl (fun s e =>
    match e.kind.toNat with
    | 1 => if done e then s else s.repairRow e
    | 2 => s.knownRepair e
    | 3 => s.excludeSub e.sub
    | _ => s) s

/-- Blocks of USE 6 or 7 placed in vacated frames of this module, whose content step 7 would write (R407). -/
def State.lostSystem (s : State) : Bool :=
  let fs := s.vacatedFrames
  (s.boot.plate.map (·.placement)).any fun es => es.any fun e =>
    (e.use = 6#4 || e.use = 7#4) && (List.range e.blockCount.toNat).any fun i =>
      let h := e.homeOf i
      h.1 = s.me.toNat && fs.contains h.2

/-- The directory copy as the placement table gives it (R258). -/
def State.buildCopy (s : State) : State :=
  match s.boot.plate with
  | none => s
  | some p => p.placement.foldl (fun s e => (List.range e.blockCount.toNat).foldl (fun s i =>
      let h := e.homeOf i
      s.setDirEntry (e.blockBase.toNat + i) (dirMake e.pinned (BitVec.ofNat 10 h.1) (BitVec.ofNat 20 h.2))) s) s

/-- The stream copies of this module written to their DEST (R397). -/
def State.writeStreams (s : State) : State :=
  match s.boot.plate with
  | none => s
  | some p => (p.programs.filter fun r => r.module = s.me).foldl (fun s r =>
      s.sysWrite r.dest.toNat (r.commands.flatMap fun w => leBytes 64 w.toNat)) s

/-- A module without tenant, or after a teardown: status 0x0A, ports down, partitions in reset, until its next start (R482, R514). -/
def State.idleUnbound (s : State) : State :=
  let s := { s with boot := { s.boot with standing := .teardown, code := 0x0A#8 } }
  { s.closePorts with parts := Vector.replicate 16 { Part.atReset with reset := some ⟨s.time.mono, none⟩ } }

/-- Step 7 done: directory and stream copies in memory, handshakes accepted; the join may begin. -/
def State.stepSeven (s : State) : State :=
  let s := s.buildCopy.writeStreams
  let s := { s with boot := { s.boot with step := 7, code := 0x05#8, trained := true }, trans := { s.trans with accepting := true } }
  s.tryJoin

/-- Every subchannel trained now (R231). -/
def State.trainedAll (s : State) : State :=
  (List.range (48 * s.label.variant.stacks)).foldl (fun s g => s.modSub g fun x => { x with retrained := s.time.mono }) s

/-- MEMORY_TRAINING_DONE: the end of step 4 and the work of step 7. A partition that fails, or with more than four subchannels mapped out, is
code 0x89. -/
def execMemoryTrainingDone (r : TrainResult) (s : State) : Res :=
  .next (if s.boot.standing ≠ .starting || s.boot.step ≠ 4 then s
    else
      let s := r.failedParts.foldl (fun s p => s.health 4 (48 * p.toNat) 0 0) s
      let s := s.trainedAll.rebuildHealth
      let s := r.failedSubs.foldl (fun s g => (s.excludeSub g.toNat).health 3 g.toNat 0 0) s
      let crowded : Bool := (List.range s.label.variant.parts).any fun p => 4 < (s.part p).mapOuts.length
      if !r.failedParts.isEmpty || crowded then s.hold 0x89
      else if s.sec.setup.tenant = 0#512 then s.idleUnbound
      else if s.lostSystem then s.hold 0x8C
      else s.stepSeven)

/-! ## Step 8: join and directory (R406, R407) -/

/-- JOIN at the manager: JOINED, or a refusal of a record whose measurement differs from its own. -/
def execJoin (j : JoinRec) (s : State) : Res :=
  .next (if !s.isManager || s.boot.plate.isNone || j.side ≠ s.side then s
    else if (s.boot.plate.map Plate.measure) = some j.measure then
      (s.modInfo j.module fun m => { m with joined := some j, failed := false, beatAt := s.time.mono, nMin := 0 }).send j.module (.joined true)
    else s.send j.module (.joined false))

/-- JOINED at a worker: it enters ALIGNED, or stops with code 0x8B. -/
def execJoined (accepted : Bool) (s : State) : Res :=
  .next (if s.boot.standing ≠ .starting || s.boot.step ≠ 8 || s.isManager then s
    else if accepted then (s.modTime fun t => { t with worker := .aligned, awayRuns := 0 }).noteTime
    else s.hold 0x8B)

/-- Has every module of the side joined? -/
def State.allJoined (s : State) : Bool := s.modules.all fun m => (s.info m).joined.isSome

/-- The authoritative directory as placed (R258). -/
def State.placedAuth (s : State) : SMap (BitVec 32) :=
  match s.boot.plate with
  | none => []
  | some p => p.placement.foldl (fun d e => (List.range e.blockCount.toNat).foldl (fun d i =>
      let h := e.homeOf i
      SMap.insert d (e.blockBase.toNat + i) (dirMake e.pinned (BitVec.ofNat 10 h.1) (BitVec.ofNat 20 h.2))) d) []

/-- Is a frame of a module vacated, by its JOIN? -/
def State.joinVacated (s : State) (m : BitVec 10) (f : Nat) : Bool := (s.info m).joined.any fun j => j.vacated.any fun v => v.toNat = f

/-- The lowest free frame of the same module, or else of the lowest module that has one (R407). -/
def State.rehomeTo (s : State) (m : BitVec 10) : Option (BitVec 10 × Nat) :=
  let free := s.freeFrames
  match free.find? fun f => f.1 = m with
  | some f => some f
  | none => free.head?

/-- Is a block one of USE 6 or 7, which cannot be rehomed (R407)? -/
def State.fixedBlock (s : State) (b : Nat) : Bool := (s.placeOf b).any fun p => 6 ≤ p.1.use.toNat

/-- One block rehomed if its placed frame is vacated: the update, or, with no free frame in the domain, its home stops with code 0x8C. Its PINNED bit stays:
this is no migration (R407). -/
def rehomeOne (s : State) (b : Nat) (e : BitVec 32) : State × List DirUpdate :=
  if s.fixedBlock b || !s.joinVacated (dirModule e) (dirFrame e) then (s, [])
  else
    match s.rehomeTo (dirModule e) with
    | some f =>
      let n := dirMake (dirPinned e) f.1 (BitVec.ofNat 20 f.2)
      ({ s with mem := { s.mem with auth := SMap.insert s.mem.auth b n } },
        [⟨s.time.stroke + 1#48, 1#8, BitVec.ofNat 32 b, f.1, BitVec.ofNat 20 f.2⟩])
    | none => (if dirModule e = s.me then s.hold 0x8C else s, [])

/-- Every vacated block rehomed, in ascending order of blocks. -/
def rehomeAll (s : State) : List (Nat × BitVec 32) → State × List DirUpdate
  | [] => (s, [])
  | (b, e) :: r =>
    let x := rehomeOne s b e
    let y := rehomeAll x.1 r
    (y.1, x.2 ++ y.2)

/-- DIRECTORY_FORM (R407) at the manager, every module joined: the directory as placed, with vacated blocks rehomed by switch records for the next
boundary. -/
def execDirectoryForm (s : State) : Res :=
  .next (if !s.isManager || s.boot.standing ≠ .starting || s.boot.step ≠ 8 || s.mem.formed || !s.allJoined then s
    else
      let s := { s with mem := { s.mem with auth := s.placedAuth, formed := true }, boot := { s.boot with joinedAll := true } }
      let r := rehomeAll s s.mem.auth
      let s := r.1
      if s.boot.standing ≠ .starting then s else s.sendBatch (s.time.stroke + 1#48) (r.2.map .dir))

/-! ## Step 9: objects and DATA (R408, R182) -/

/-- A byte string laid into this module's blocks: the pieces whose block is homed here. -/
def State.writeHomed (s : State) (a : Nat) (bytes : List Byte) : State :=
  (granulePieces (bytes.length / 128 + 2) a bytes).foldl (fun s g =>
    match s.homeOf (gaBlock (granuleAddr g.1)) with
    | some h =>
      if h.1 = s.me then
        { s with mem := { s.mem with mem := s.mem.mem.write (h.2 * blockBytes + gaInBlock (granuleAddr g.1) + g.2.1) g.2.2 } }
      else s
    | none => s) s

/-- An object of the plate as bulk flash gives it, its DIGEST met. -/
def State.goodObject (s : State) (o : ObjectEntry) : Option (List Byte) :=
  match s.flashObj o.name with
  | some f => if f.data.length = o.length.toNat && Config.sha3 f.data = o.digest then some f.data else none
  | none => none

/-- The resident groups of a partition that a condition names, filled from their images (R180, R182). -/
def State.fillWhere (s : State) (p : Nat) (sel : Nat → Bool) : State :=
  match s.scratch p, s.boot.plate with
  | some r, some pl =>
    r.groups.zipIdx.foldl (fun s g =>
      if g.1.kind = 1#4 && sel g.2 then
        let data := ((pl.objects[g.1.image.toNat - 1]?).bind s.goodObject).getD []
        s.modPart p fun x => x.spWrite (4194304 * g.2) (padTo 4194304 0#8 data)
      else s) s
  | _, _ => s

/-- Every resident group of a partition filled. -/
def State.fillGroups (s : State) (p : Nat) : State := s.fillWhere p fun _ => true

/-- The resident groups that hold an uncorrectable word refilled, in every partition (R243). -/
def State.refillBad (s : State) : State :=
  (List.range s.label.variant.parts).foldl (fun s p => s.fillWhere p fun q => (s.part p).badIn (4194304 * q) 4194304) s

/-- One object loaded, or noted as missing by its number from 0. -/
def loadObject (s : State) (o : ObjectEntry × Nat) : State :=
  match s.goodObject o.1 with
  | some data =>
    let s := s.writeHomed (o.1.blockBase.toNat * blockBytes) data
    { s with boot := { s.boot with digests := s.boot.digests ++ [o.1.digest] } }
  | none => { s with boot := { s.boot with missing := s.boot.missing ++ [o.2] } }

/-- Everything loaded: DATA written, resident groups filled, LOADED reported. -/
def State.finishLoad (s : State) : State :=
  match s.boot.plate with
  | none => s
  | some p =>
    let s := p.data.foldl (fun s d => s.writeHomed d.dest.toNat d.bytes) s
    let s := (List.range s.label.variant.parts).foldl State.fillGroups s
    { s with boot := { s.boot with loaded := true } }.send s.ae.manager .loaded

/-- Step 9: the objects in ascending number; what is missing is fetched from the store, or the module stops with code 0x8D when none is named. -/
def State.loadObjects (s : State) : State :=
  match s.boot.plate with
  | none => s
  | some p =>
    let s := { s with boot := { s.boot with missing := [], digests := [] } }
    let s := p.objects.zipIdx.foldl loadObject s
    if s.boot.missing.isEmpty then s.finishLoad
    else if !s.hasStore then s.hold 0x8D
    else s.boot.missing.foldl (fun s i => match p.objects[i]? with
      | some o => s.storeGet o.name
      | none => s) s

/-- Is the directory final here: joined, and every rehoming applied (R407)? -/
def State.directoryFinal (s : State) : Bool := s.mem.gotBatch.isEmpty && (if s.isManager then s.mem.formed else s.time.worker = .aligned)

/-- Does a block still lie in a vacated frame of this module once the directory is final: the domain had no free frame for it (R407)? -/
def State.stranded (s : State) : Bool :=
  (List.range s.label.variant.parts).any (fun p => s.begunOuts p ≠ 0) &&
    let fs := s.vacatedFrames
    (s.boot.plate.map (·.placement)).any fun es => es.any fun e =>
      (List.range e.blockCount.toNat).any fun i => (s.homeOf (e.blockBase.toNat + i)).any fun h => h.1 = s.me && fs.contains h.2

/-- OBJECT_LOAD (R408). A module with a block that could not be rehomed stops with code 0x8C (R407). -/
def execObjectLoad (s : State) : Res :=
  .next (if s.boot.standing ≠ .starting || s.boot.step ≠ 8 || !s.directoryFinal then s
    else if s.stranded then s.hold 0x8C
    else { s with boot := { s.boot with step := 9, code := 0x07#8, dirFinal := true } }.loadObjects)

/-! ## Step 10: validation (R410) -/

/-- The VALIDATE entries of an instance, in section order. -/
def State.validEntries (s : State) (inst : BitVec 16) : List ValidRec := (s.boot.plate.map fun p => p.validate.filter fun v => v.inst = inst).getD []

/-- The instances that this module leads. -/
def State.ledInsts (s : State) : List (BitVec 16) := (s.myInsts.filter fun r => r.lead = s.me).map (·.inst)

/-- Instances of which validation asks nothing more before serving, as their lead tells the manager (R411; notes/assumptions/32). -/
def State.tellPassed (is : List (BitVec 16)) (s : State) : State :=
  if s.isManager then s else is.foldl (fun s i => s.send s.ae.manager (.report (.validated i true))) s

/-- An entry of an instance has failed: every module of the instance stops with code 0x8E (R410). -/
def State.failValidation (s : State) (inst : BitVec 16) : State :=
  (((s.instModules inst).filter (· ≠ s.me)).foldl (fun s m => s.send m (.report (.validated inst false))) s).hold 0x8E

/-- Step 10 begins: each instance led here with entries runs them; one without passes at once. Instances whose sessions the twin holds run theirs
once caught up (R437). -/
def State.beginValidation (s : State) : State :=
  if s.boot.standing ≠ .starting || s.boot.step ≠ 9 then s
  else
    let led := s.ledInsts.filter fun i => !s.twin.away.contains i
    let runs := led.filter fun i => !(s.validEntries i).isEmpty
    let none' := led.filter fun i => (s.validEntries i).isEmpty
    State.tellPassed (none' ++ s.ledInsts.filter s.twin.away.contains) { s with boot := { s.boot with step := 10, code := 0x08#8, passed := none', valid := runs.foldl (fun m i => SMap.insert m i.toNat ⟨0, none⟩) [] } }

/-- LOADED (R410): counted at the manager; after the last it tells every module, and validation begins; a manager that serves tells a module that has
started anew at once (R437). -/
def execLoaded (module : BitVec 10) (s : State) : Res :=
  .next (if s.isManager then
      let s := s.modInfo module fun m => { m with loaded := true }
      if s.boot.standing = .serving then s.send module .loaded
      else if s.boot.loaded && s.modules.all fun m => (s.info m).loaded then
        (if s.boot.step = 9 then s.broadcast .loaded else s).beginValidation
      else s
    else if s.boot.loaded then s.beginValidation else s)

/-- The terms of a validation session: cadence 1 (R410); TTFT and grace, which it does not use, are 0. -/
def ValidRec.terms (v : ValidRec) : OpenTerms :=
  { seed := v.seed, prompt := BitVec.ofNat 32 v.prompt.length, output := BitVec.ofNat 32 v.output.toNat, ttft := 0#16, cadence := 1#8, grace := 0#8,
    cclass := v.cclass }

/-- What R334 allocates for a validation session, with its ring: none if no ring, frames or area are free. -/
def State.validGrant (s : State) (inst : BitVec 16) (v : ValidRec) : Option Grant :=
  match s.kvOf inst, s.cclass v.cclass with
  | some d, some c =>
    match s.pageLog2For d (v.prompt.length + v.output.toNat) with
    | none => none
    | some pl =>
      let chunk := 128 * c.chunkMin.toNat
      let g := sessGeom d c v.terms pl chunk
      let flen := ceilDiv (g.kv.layers * g.kv.heads * 2 * g.kv.slabBytes) blockBytes
      let usedSlots := (s.sess.list.filter fun x => x.port = s.me).map fun x => x.slot
      match (List.range 32768).find? (fun n => !usedSlots.contains n), takeFrames flen g.kv.alloc (s.instBlocks inst 3),
            lowestRun (s.instBlocks inst 4) g.areaBlocks with
      | some slot, some fs, some ar =>
        let gen := nextGen (SMap.get s.ae.prevGen (32768 * s.me.toNat + slot) 0)
        some { handle := BitVec.ofNat 32 (slot * 131072 + gen), admAt := s.time.stroke,
               first := s.time.stroke + BitVec.ofNat 48 (1 + chunks v.prompt.length chunk), chunk := BitVec.ofNat 16 chunk, shift := 0#8,
               pageLog2 := BitVec.ofNat 4 pl, frames := fs.map (BitVec.ofNat 32), area := BitVec.ofNat 32 ar, areaLen := g.areaBlocks }
      | _, _, _ => none
  | _, _ => none

/-- The FwdOpen under which the other modules of the instance learn of a validation session. -/
def State.validReq (s : State) (v : ValidRec) : FwdOpen := ⟨s.me, 0xFF#8, 0#32, v.terms⟩

/-- A validation session admitted in the stroke that begins now, its prompt complete at once; without allocation the entry fails, code 0x8E. -/
def State.admitValid (s : State) (inst : BitVec 16) (run : ValidRun) : State :=
  match (s.validEntries inst)[run.entry]? with
  | none => s
  | some v =>
    match s.validGrant inst v with
    | none => s.failValidation inst
    | some g =>
      let x := { s.sessionOf (s.validReq v) g 0#512 inst with valid := some run.entry }
      let key := 32768 * s.me.toNat + x.slot
      let s := { s with ae := { s.ae with prevGen := SMap.insert s.ae.prevGen key (g.handle.toNat % 131072) } }
      let s := ((s.addSession x).writeStructures x).takePrompt x.key v.prompt
      let s := { s with boot := { s.boot with valid := SMap.insert s.boot.valid inst.toNat ⟨run.entry, some g.handle⟩ } }
      ((s.instModules inst).filter (· ≠ s.me)).foldl (fun s m => s.send m (.decision ⟨0, s.validReq v, .accept g⟩)) s

/-- At a stroke boundary, entries whose predecessor has been released are admitted. -/
def State.startValidation (s : State) : State :=
  s.boot.valid.foldl (fun s r =>
    if r.2.handle.isNone && !(s.sess.list.any fun x => x.valid.isSome && x.inst.toNat = r.1) && (s.boot.standing = .starting || s.boot.standing = .serving) then
      s.admitValid (BitVec.ofNat 16 r.1) r.2
    else s) s

/-- The outputs of a validation session so far, from output 0 without a gap; END ends them. -/
def validOutputs (ring : SMap RingEntry) : Nat → Nat → List RingEntry
  | 0, _ => []
  | n + 1, i =>
    match SMap.find ring i with
    | some e => if e.fin then [e] else e :: validOutputs ring n (i + 1)
    | none => []

/-- Have a session's outputs ended: all OUTPUT of them, or one with END? -/
def validEnded (v : ValidRec) (es : List RingEntry) : Bool := es.length = v.output.toNat || (es.getLast?).any (·.fin)

/-- Does an entry pass: at least MATCH outputs, the first MATCH equal to the expected tokens? -/
def validPasses (v : ValidRec) (es : List RingEntry) : Bool :=
  v.matchN.toNat ≤ es.length && (es.map (·.token)).take v.matchN.toNat = v.expected.take v.matchN.toNat

/-- VALIDATION_ENTRY_END (R410) at the lead module: the session closes and its resources go; the next entry follows, or the instance has passed, or
the module stops with code 0x8E. -/
def execValidationEntryEnd (inst : BitVec 16) (s : State) : Res :=
  .next (match SMap.find s.boot.valid inst.toNat with
    | none => s
    | some run =>
      match (run.handle.bind fun h => s.session ⟨s.me, h⟩), (s.validEntries inst)[run.entry]? with
      | some x, some v =>
        let es := validOutputs x.ring v.output.toNat 0
        if !validEnded v es then s
        else
          let s := s.closeSession x.key 2 0
          if !validPasses v es then s.failValidation inst
          else if run.entry + 1 < (s.validEntries inst).length then
            { s with boot := { s.boot with valid := SMap.insert s.boot.valid inst.toNat ⟨run.entry + 1, none⟩ } }
          else State.tellPassed [inst] { s with boot := { s.boot with valid := SMap.erase s.boot.valid inst.toNat, passed := s.boot.passed ++ [inst] } }
      | _, _ => s)

/-! ## Step 11: serving (R411, R415) -/

/-- Has every instance passed, as its lead has told the manager, but for those that the twin holds (R411, R437)? -/
def State.allPassed (s : State) : Bool :=
  ((s.boot.plate.map (·.instances)).getD []).all fun r => s.boot.passed.contains r.inst || s.twin.away.contains r.inst

/-- SERVING (R411): sent by the manager during a close once every instance has passed; admission opens at the next boundary. A manager that serves
sends the record again for modules that have started anew (R437). -/
def execServing (s : State) : Res :=
  .next (if s.isManager && s.boot.standing = .serving then s.broadcast (.serving s.time.stroke)
    else if s.boot.standing ≠ .starting || s.boot.step ≠ 10 || !s.boot.valid.isEmpty || (s.isManager && !s.allPassed) then s
    else
      let s := { s with boot := { s.boot with servingAt := some (s.time.stroke + 1#48) } }
      if s.isManager then s.broadcast (.serving s.time.stroke) else s)

/-- Has NOT_AFTER of the committed setup passed (R513)? -/
def State.bindingOver (s : State) : Bool := s.sec.setup.notAfter ≠ 0#64 && s.sec.setup.notAfter.toNat ≤ s.time.ft.toNat

/-- The boundary at which a SERVING record takes effect: the module serves, the boot record is written, admission opens at the manager unless the
binding is already over (R411, R415, R513). -/
def State.openAdmission (s : State) : State :=
  match s.boot.servingAt with
  | some n =>
    if n.toNat ≤ s.time.stroke.toNat && s.boot.standing = .starting then
      let serial := (s.boot.plate.map (·.header.serial)).getD 0#64
      let s := s.writeBoot fun r => { r with active := BitVec.ofNat 8 s.boot.slot, pending := false, floor := serial }
      { s with boot := { s.boot with standing := .serving, step := 11, code := 0x09#8, servingAt := none },
               ae := { s.ae with isOpen := s.isManager && !s.bindingOver } }
    else s
  | none => s

/-- START_TIMEOUT (R404, R412): 0x8A at a manager that is not LOCKED, else 0x8F. -/
def execStartTimeout (s : State) : Res :=
  .next (if s.boot.standing ≠ .starting || s.boot.plate.isNone then s
    else
      let s := s.reachMono (s.boot.startAt.toNat + s.domain.startTimeout.toNat * 1000000000)
      if s.isManager && s.time.master ≠ .locked then s.hold 0x8A else s.hold 0x8F)

end Sys2Proof.Machine
end

