-- ==== Sys2Proof/Machine/Batch.lean ====
section
/-! DEFINITION. Batch.lean: the batch table of the next stroke as the lead module's SU builds it, session records, and the row with which a restored
session resumes (spec/03 R82 to R88, spec/13 R341, spec/16 R423, R435, spec/18 R467). -/
namespace Sys2Proof.Machine

/-! ## The rows of a session (R83 to R88, R213) -/

/-- Does the SU set RING_MODE in a session's rows (R213)? -/
def Session.ringMode (x : Session) : Bool := x.valid.isSome || !x.incomplete.isEmpty

/-- A row of a session: its structures, the class, and the stage with position, tokens, drafts and output. -/
def State.rowFor (s : State) (x : Session) (stage position chunk drafts outIndex prompt : Nat) : BatchRow :=
  let a := s.areaOf x
  { seed := x.terms.seed, prompt := BitVec.ofNat 56 prompt, dueStroke := BitVec.ofNat 48 (x.due outIndex), staging := BitVec.ofNat 56 a.staging,
    cclass := x.terms.cclass, pageCount := BitVec.ofNat 32 x.pageCount,
    staged := BitVec.ofNat 16 (position - x.pageCount * 2 ^ x.pageLog2.toNat), ring := BitVec.ofNat 15 x.slot,
    pageList := BitVec.ofNat 56 a.pageList, drafts := BitVec.ofNat 8 drafts, outIndex := BitVec.ofNat 32 outIndex, chunk := BitVec.ofNat 16 chunk,
    stage := BitVec.ofNat 8 stage, pageLog2 := x.pageLog2, kvRate := ((s.cclass x.terms.cclass).map (·.rate)).getD 0#2, ringMode := x.ringMode,
    handle := x.handle, position := BitVec.ofNat 32 position }

/-- The row of the chunk that begins at a position (R86, R88). -/
def State.prefillRow (s : State) (x : Session) (position : Nat) : BatchRow :=
  let lp := x.terms.prompt.toNat
  let n := min x.chunk.toNat (lp - position)
  s.rowFor x (if position + n = lp then 2 else 1) position n 0 0 (s.areaOf x).prompt

/-- Does a session take rows at all: not closed, not suspended, its prompt complete where this module knows? -/
def State.takesRows (s : State) (x : Session) : Bool :=
  x.closing.isNone && x.suspended.isNone && (x.port ≠ s.me || x.terms.prompt.toNat ≤ x.rcvd)

/-- Does a session leave this module before a stroke: its instance is handed over then, and it is one of those that go (R438, R439)? -/
def State.leaving (s : State) (x : Session) (m : Nat) : Bool :=
  s.twin.handovers.any fun h => h.giving && h.inst = x.inst && h.h.toNat ≤ m && x.held2 == s.twin.holding.contains x.inst

/-- The output due in a stroke, if any (R84). -/
def Session.outputAt (x : Session) (m : Nat) : Option Nat :=
  let i := (m - x.first.toNat) / x.terms.cadence.toNat
  if x.first.toNat ≤ m && (m - x.first.toNat) % x.terms.cadence.toNat = 0 && i < x.terms.output.toNat && !x.endAt.any (· < i) then some i else none

/-- The decode or release row of a session in a stroke: a RELEASE row for an output that it holds, or will hold once the row that yields it has run. -/
def State.decodeRow (s : State) (x : Session) (m : Nat) (catchup : Bool) : Option BatchRow :=
  let lp := x.terms.prompt.toNat
  match x.outputAt m with
  | none => none
  | some i =>
    if x.held.any (·.index = i) || (i = 0 && x.outNext = 1 && s.su.doneWork.toNat < x.lastRow.toNat && x.lastRow.toNat < m) then
      some (s.rowFor x 4 (lp + i - 1) 0 0 i (s.areaOf x).prompt)
    else if i < x.outNext || i = 0 then none
    else
      let d := ((s.cclass x.terms.cclass).map fun c => c.draftsMax.toNat).getD 0
      some (s.rowFor x (if d = 0 then 0 else 3) (lp + i - 1) 1 (if catchup then 0 else d) i (s.areaOf x).prompt)

/-- A session's own row in a stroke: that of its restore, its next chunk, or its decode or release row; a prefilling session has none before
stroke a + 2 (R87). -/
def State.ownRow (s : State) (x : Session) (m : Nat) (catchup : Bool) : Option BatchRow :=
  if !s.takesRows x || s.leaving x m then none
  else match x.replay with
    | some r => some (s.rowFor x r.stage.toNat r.position r.chunk 0 0 r.prompt.toNat)
    | none =>
      if x.commitEnd < x.terms.prompt.toNat then (if x.admAt.toNat + 2 ≤ m then some (s.prefillRow x x.commitEnd) else none)
      else s.decodeRow x m catchup

/-- Is a row one of stage 1 or 2? -/
def isPrefill (r : BatchRow) : Bool := r.stage = 1#8 || r.stage = 2#8

/-! ## Further prefill rows (R87) -/

/-- The charges of a row by its fields (R325). -/
def State.rowCharge (s : State) (a : AdmRec) (r : BatchRow) : Charge :=
  match s.cclass r.cclass with
  | none => .zero
  | some c =>
    let pg := rowPg r
    if isPrefill r then (prefillCharges a c r.ringMode pg r.chunk.toNat r.chunk.toNat r.position.toNat).firm
    else if r.stage = 4#8 then oneRow
    else (decodeCharges a c r.ringMode pg (r.position.toNat + 1 - r.outIndex.toNat) 1 r.outIndex.toNat).firm

/-- The firm charges of a table. -/
def State.tableCharge (s : State) (inst : BitVec 16) (rows : List BatchRow) : Charge :=
  match s.admRec inst with
  | none => .zero
  | some a => if rows.isEmpty then .zero else a.baseCharge.add (Charge.sum (rows.map (s.rowCharge a)))

/-- Does the projected cost of the rows of an instance, with what this module's other tables of the stroke cost, stay within the serving budget and
MAX_ROWS? -/
def State.withinBudget (s : State) (inst : BitVec 16) (m : Nat) (rows : List BatchRow) : Bool :=
  match s.admRec inst, s.instRec inst with
  | some a, some r =>
    rows.length ≤ r.maxRows.toNat && r.modules.all fun d =>
      let u := s.slotAsXfer d
      let mine := (s.tableCharge inst rows).unslot u
      let rest := if d = s.me then
          Charge.sum ((s.su.next.filter fun t => t.inst ≠ inst && t.stroke.toNat = m).map fun t => (s.tableCharge t.inst t.rows).unslot u)
        else .zero
      resources.all fun q =>
        let t := match q with
          | .slot | .rows => mine
          | _ => mine.add rest
        within (t.of q) (s.capacity d a q) s.admHdr.limits.1
  | _, _ => false

/-- The chunks of a session after a position, one row each, as far as the budget goes; fuel bounds their number. -/
def State.extraRows (s : State) (inst : BitVec 16) (m : Nat) (x : Session) : Nat → Nat → List BatchRow → List BatchRow
  | 0, _, rows => rows
  | n + 1, position, rows =>
    if x.terms.prompt.toNat ≤ position then rows
    else
      let r := s.prefillRow x position
      if s.withinBudget inst m (rows ++ [r]) then extraRows s inst m x n (position + r.chunk.toNat) (rows ++ [r]) else rows

/-- The prefill rows of a stroke, session by session in order of admission. A session's further rows stand behind its own; `rows` are the
table's rows so far. -/
def State.prefillRows (s : State) (inst : BitVec 16) (m : Nat) (catchup : Bool) (decode : List BatchRow) (firsts : List (Session × BatchRow)) :
    List BatchRow :=
  firsts.foldl (fun acc f =>
    let later := (firsts.filter fun g => f.1.order < g.1.order).map (·.2)
    let others := decode ++ later
    if catchup || f.1.replay.isSome then acc ++ [f.2]
    else
      let got := s.extraRows inst m f.1 4096 (f.2.position.toNat + f.2.chunk.toNat) (others ++ acc ++ [f.2])
      got.drop others.length) []

/-! ## The table (R84, R85) -/

/-- The sessions of an instance in order of admission. -/
def State.instSessions (s : State) (inst : BitVec 16) : List Session :=
  (s.sess.list.filter fun x => x.inst = inst).insertionSort fun a b => a.order ≤ b.order

/-- Every row due in a stroke in the order of R84, behind the carried ones. -/
def State.dueRows (s : State) (inst : BitVec 16) (m : Nat) (catchup : Bool) : List BatchRow :=
  let own : List (Session × BatchRow) := (s.instSessions inst).filterMap fun x => (s.ownRow x m catchup).map fun r => (x, r)
  let decode := ((own.filter fun r => !isPrefill r.2).map (·.2)).insertionSort fun a b => a.ring.toNat ≤ b.ring.toNat
  let carried := ((s.sess.carried.filter fun c => c.inst = inst).map (·.row)).filterMap fun r =>
    (s.rowSession r).bind fun x => if s.takesRows x then some { r with ringMode := x.ringMode, drafts := if catchup then 0#8 else r.drafts } else none
  carried ++ decode ++ s.prefillRows inst m catchup (carried ++ decode) (own.filter fun r => isPrefill r.2)

/-- What a row leaves of its session for the tables to come: committed end, pages, outputs, its last row; a restore's row has been given. -/
def Session.advance (x : Session) (stroke : Stroke) (r : BatchRow) : Session :=
  if !x.owns r then x
  else
    let e := max x.commitEnd (committedEnd r.stage.toNat r.position.toNat (rowTokens r))
    let yields : Bool := r.stage = 0#8 || r.stage = 2#8 || r.stage = 3#8
    { x with commitEnd := if r.stage = 4#8 then x.commitEnd else e,
             pageCount := if r.stage = 4#8 then x.pageCount else e / rowPg r,
             outNext := if yields then max x.outNext (r.outIndex.toNat + 1) else x.outNext,
             lastRow := stroke, replay := none }

/-- Every row of a table given to its session. -/
def State.advanceRows (s : State) (t : BatchTable) : State :=
  t.rows.foldl (fun s r => s.mapSessions fun x => x.advance t.stroke r) s

/-- A table kept for its stroke in place of an earlier one. -/
def State.keepTable (s : State) (t : BatchTable) : State :=
  { s with su := { s.su with next := (s.su.next.filter fun u => u.inst ≠ t.inst || u.stroke ≠ t.stroke) ++ [t] } }

/-- The lead module builds the table of an instance for a stroke and sends it to the instance's other modules; what exceeds MAX_ROWS is carried. -/
def State.buildTable (s : State) (inst : BitVec 16) (m : Nat) : State :=
  let catchup := s.su.catchAt.contains m
  let rows := s.dueRows inst m catchup
  let n := ((s.instRec inst).map fun r => r.maxRows.toNat).getD 0
  let carry : List CarriedRow := (rows.drop n).map fun r => CarriedRow.mk inst r
  let t : BatchTable := { stroke := BitVec.ofNat 48 m, inst := inst, catchup := catchup, rows := rows.take n }
  let kept : List CarriedRow := s.sess.carried.filter fun c => c.inst ≠ inst
  let s := { s with sess := { s.sess with carried := kept ++ carry } }
  let s := (s.keepTable t).advanceRows { t with rows := rows }
  ((s.instModules inst).filter (· ≠ s.me)).foldl (fun s d => s.send d (.table t)) s

/-- Does this module wait to take an instance over from stroke h on, so that it builds no table of it yet (R438)? -/
def State.waitsToTake (s : State) (inst : BitVec 16) (m : Nat) : Bool := s.twin.handovers.any fun h => !h.giving && h.inst = inst && h.h.toNat ≤ m

/-- The tables of every instance led here, but of one that is still to be taken over. -/
def State.buildTables (s : State) (m : Nat) : State :=
  (s.ledInsts.filter fun i => !s.waitsToTake i m).foldl (fun s i => s.buildTable i m) s

/-- A table of the work stroke that comes once its work has begun: the instance's owners begin its commands now (R64). An instance that had left this
module is no longer counted as ended; one that failed the stroke stays so. -/
def State.admitLate (s : State) : State :=
  let late := s.su.next.filter fun t => t.stroke = s.su.work && (s.table t.inst).isNone
  if !s.su.begun || late.isEmpty then s
  else
    let back (i : BitVec 16) : Bool := (late.any fun t => t.inst = i) && !s.su.failed.contains i
    let s := { s with su := { s.su with tables := s.su.tables ++ late, next := s.su.next.filter fun t => !late.contains t } }
    serveAll (s.mapParts fun x => x.mapOwners fun o => { o with ended := o.ended.filter fun i => !back i })

/-! ## Session records (R423) -/

/-- The record of a session with a row in a stroke: the port module writes it, and every module of the instance keeps it for a restore (R467). -/
def State.writeRecord (s : State) (n : Stroke) (x : Session) : State :=
  let r := x.record n
  let s := s.modSession x.key fun y => { y with resumes := (r :: y.resumes).take 8 }
  match (if x.port = s.me then s.ringBase s.me else none) with
  | some base => s.sysWrite (recordAddr base x.slot) (recordBytes r)
  | none => s

/-- The records of the close of a stroke. -/
def State.writeRecords (s : State) (n : Stroke) : State :=
  (s.sess.list.filter fun x => x.lastRow = n && n ≠ 0#48 && !x.resumes.any fun r => r.proof = n).foldl (fun s x => s.writeRecord n x) s

/-! ## Restoring a session (R435, R467) -/

/-- The first output index from a given one on for which no token is known. -/
def firstUnknown (known : Nat → Option Word32) : Nat → Nat → Nat
  | 0, j => j
  | n + 1, j => if (known j).isSome then firstUnknown known n (j + 1) else j

/-- The token of an output in a list of ring entries. -/
def tokenIn (es : List RingEntry) (i : Nat) : Option Word32 := (es.find? fun e => e.outIndex.toNat = i).map (·.token)

/-- Start of the last chunk of a prompt (R86). -/
def lastChunkAt (lp cr : Nat) : Nat := (chunks lp cr - 1) * cr

/-- A session set back to a record, its known outputs given, its schedule shifted; the replay row of R435 is to be built next. -/
def State.resumeSession (s : State) (h : SessKey) (r : SessionRec) (es : List RingEntry) (shift : Nat) : State :=
  match s.session h with
  | none => s
  | some x =>
    let e := r.commitEnd.toNat
    let lp := x.terms.prompt.toNat
    let known := tokenIn es
    let j := firstUnknown known 64 r.outNext.toNat
    let a := s.areaOf x
    let n := lp + j - 1 - e
    let row : Option ReplayRow :=
      if e < lp then none
      else if j = 0 then some ⟨2#8, lastChunkAt lp x.chunk.toNat, lp - lastChunkAt lp x.chunk.toNat, BitVec.ofNat 56 a.prompt⟩
      else if n = 0 then none
      else some ⟨1#8, e, n, BitVec.ofNat 56 (a.replay + 2 ^ 56 - 4 * e)⟩
    let s := match row with
      | some q => if q.stage = 1#8 && x.port = s.me then
          s.sysWrite a.replay ((List.range n).flatMap fun i => leBytes 4 ((known (e - lp + i)).getD 0#32).toNat)
        else s
      | none => s
    s.modSession h fun x =>
      { x with commitEnd := e, pageCount := r.pageCount.toNat, outNext := j, held := x.held.filter (·.index < j), replay := row,
               endAt := ((es.find? (·.fin)).map (·.outIndex.toNat)).orElse fun _ => x.endAt,
               first := x.first + BitVec.ofNat 48 shift, shifts := min 255 (x.shifts + 1), suspended := none }

end Sys2Proof.Machine
end

