-- ==== Sys2Proof/Machine/Twin.lean ====
section
/-! DEFINITION. Twin.lean: pairing, the landing area and its commits, the shadow of the twin's sessions, manager relays, the proof writer and planned
handovers (spec/16 R417 to R432, R437, R438; spec/02 R45). -/
namespace Sys2Proof.Machine

/-! ## The pair (R417, R419) -/

/-- The physical twin ports of the module. -/
def State.twinPorts (s : State) : List Nat := (List.range s.label.variant.ports).filter s.isTwin

/-- Has the twin link trained? -/
def State.twinUp (s : State) : Bool := s.twinPorts.any fun p => (s.port p).alive

/-- Has this module joined its domain? -/
def State.joinedNow (s : State) : Bool :=
  s.boot.plate.isSome && s.portsOpen &&
    (if s.isManager then (s.info s.me).joined.isSome else s.time.worker = .aligned || s.time.worker = .offPlan)

/-- The twin offset bound in ns: 100 µs or a hundredth of the period, whichever is smaller (R45). -/
def State.twinBound (s : State) : Nat := min 100000 (s.periodNs / 100)

/-- The FT difference to the twin, from an FT that it sent: the delay of the twin link is taken off (R38, R45; notes/assumptions/50). -/
def State.twinOffset (s : State) (ft : BitVec 64) : Int :=
  let d := ((s.twinPorts.find? fun p => (s.port p).alive).map fun p => (s.port p).delayNs).getD 0
  (s.time.ft.toNat : Int) - ft.toNat - d

/-- Pair states in the order of Table 16.3. -/
def PairPhase.code (p : PairPhase) : Nat :=
  match p with
  | .unpaired => 0
  | .paired => 1
  | .holding => 2
  | .catchingUp => 3

/-- The pair state that this module tells its twin; what it holds is told while the pair is UNPAIRED too. -/
def State.pairCode (s : State) : Nat := if s.twin.holding.isEmpty then s.twin.phase.code else 2

/-- Is the module in service: running, no partition in reset? -/
def State.inService (s : State) : Bool :=
  (s.boot.standing = .starting || s.boot.standing = .serving) && (List.range s.label.variant.parts).all fun p => (s.part p).reset.isNone

/-- The numbers of the instances of this module. -/
def State.instNums (s : State) : List (BitVec 16) := s.myInsts.map (·.inst)

/-- Instances of this module whose sessions the twin holds. -/
def State.awayHere (s : State) : List (BitVec 16) := s.twin.away.filter s.instNums.contains

/-- The state of a pair whose pairing is complete, from who holds what (Table 16.3); a module out of service keeps the state it has. -/
def State.pairSettle (s : State) : State :=
  if !(s.twin.ackSent && s.twin.ackGot) then s
  else if !s.twin.holding.isEmpty then s.modTwin fun t => { t with phase := .holding }
  else if !s.awayHere.isEmpty then (if s.inService then s.modTwin fun t => { t with phase := .catchingUp } else s)
  else s.modTwin fun t => { t with phase := .paired }

/-- Marks of layer 1 taken away from the sessions held for the twin: their next proofs carry everything (R437). -/
def State.clearHeldMarks (s : State) : State :=
  s.mapSessions fun x => if x.held2 then { x with marks := SMap.erase x.marks 1 } else x

/-- Pairing completes once each side has PAIR_ACK (R417). A module that the twin holds sessions for catches up; one that holds some proves them
from the beginning. -/
def State.tryPair (s : State) : State :=
  if s.twin.ackSent && s.twin.ackGot then
    let gone : List (BitVec 16) :=
      if s.twin.twinPair = 2#2 && s.awayHere.isEmpty && s.twin.holding.isEmpty then s.instNums.foldl addOnce s.twin.away else s.twin.away
    let s := s.modTwin fun t => { t with away := gone }
    let s := { s with boot := { s.boot with passed := s.boot.passed.filter fun i => !gone.contains i } }
    let s := if s.isManager then { s with ae := { s.ae with relayUp := true } } else s
    s.clearHeldMarks.pairSettle
  else s

/-- The module offers PAIR (R417). -/
def State.offerPair (s : State) : State :=
  match s.boot.plate with
  | some p => s.emit (.twin (.pair ⟨p.measure, s.time.ft, BitVec.ofNat 8 s.pairCode⟩))
  | none => s

/-- PAIR (R417): accepted when plate, time and TWINNED agree, else a pairing alarm. -/
def execPair (p : PairRec) (s : State) : Res :=
  .next (if !s.joinedNow || !s.twinUp then s
    else if s.twinned && (s.boot.plate.map Plate.measure) = some p.measure && (s.twinOffset p.ft).natAbs ≤ s.twinBound then
      ((s.modTwin fun t => { t with ackSent := true, twinPair := BitVec.ofNat 2 p.pairState.toNat }).emit (.twin .pairAck)).tryPair
    else s.alarm (devNotice 0x04 0x40 0x30 0))

/-- PAIR_ACK (R417). -/
def execPairAck (s : State) : Res :=
  .next (if !s.joinedNow || !s.twinUp || !s.twinned then s else (s.modTwin fun t => { t with ackGot := true }).tryPair)

/-- PAIR_RETRY (R417): an unpaired module whose twin link has trained offers PAIR, first once joined and then every 10 s (notes/assumptions/50). -/
def execPairRetry (s : State) : Res :=
  .next (if !s.joinedNow || !s.twinUp || !s.twinned || (s.twin.ackSent && s.twin.ackGot) then s else s.offerPair)

/-- Landing data and everything else that a pair has not committed, dropped (R420). -/
def State.dropLanding (s : State) : State := s.modTwin fun t => { t with landing := [] }

/-- TWIN_STATE (R45, R338, R418): the twin's FT, lag, module state and pair state at a boundary. -/
def execTwinState (t : TwinStateRec) (s : State) : Res :=
  .next (if !s.twinned || !s.twinUp then s
    else
      let d := s.twinOffset t.ft
      let away : Bool := s.twinBound < d.natAbs
      let was := s.twin.diverged
      let s := if away && !s.twin.diverged then s.alarm (devNotice 0x03 0x40 0x30 0) else s
      let s := s.modTwin fun w => { w with twinDiff := d, twinLag := t.lag, twinMod := t.modState, twinPair := t.pairState, diverged := away }
      let adm : AdmState := if t.modState = 0#2 then .normal else if t.modState = 1#2 then .exposed else .strained
      let s := if s.isManager then s.modInfo s.me fun m => { m with twinAdm := adm } else s
      let s := if away = was then s else s.tell (.diverged away)
      s.pairSettle)

/-! ## Landing data (R421, R423, R425, R428) -/

/-- Bytes of an item of the landing area. -/
def LandItem.bytes (i : LandItem) : Nat :=
  match i with
  | .data _ _ _ gs => 128 * gs.length
  | .recs _ _ rs => 64 * rs.length

/-- Room in the landing area (Table 16.6 LANDING_MIB). -/
def State.landRoom (s : State) (i : LandItem) : Bool :=
  (s.twin.landing.map LandItem.bytes).sum + i.bytes ≤ ((s.proofRec.map fun p => p.landingMib.toNat).getD 0) * 1048576

/-- An item put into the landing area; one that finds it full waits with its sender (R428). -/
def State.land (s : State) (i : LandItem) : State := if s.landRoom i then s.modTwin fun t => { t with landing := t.landing ++ [i] } else s

/-- Proof granules written at their global address, at class 3 (R421). -/
def State.writeShadow (s : State) (a : GAddr) (gs : List Granule) : State := s.classWrite 3#2 a.toNat (gs.flatMap granuleBytes)

/-- TWIN_DATA (R421, R428): proof granules land until their commit; on side A, job data is what the twin's shadow returns on a resume and is written
at once (R459). -/
def execTwinData (stroke : Stroke) (inst : BitVec 16) (addr : GAddr) (gs : List Granule) (s : State) : Res :=
  .next (if !s.twinned then s
    else if inst = 0xFFFF#16 && !s.side then s.writeShadow addr gs
    else if s.twin.phase = .unpaired then s
    else s.land (.data stroke inst addr gs))

/-- TWIN_RECORD (R423). -/
def execTwinRecord (stroke : Stroke) (inst : BitVec 16) (rs : List SessionRec) (s : State) : Res :=
  .next (if !s.twinned || s.twin.phase = .unpaired then s else s.land (.recs stroke inst rs))

/-- A session of the twin as this module keeps it. -/
def State.shadowOf (s : State) (h : BitVec 32) : Option Session := s.sess.shadow.find? fun x => x.port = s.me && x.handle = h

/-- A shadow session changed. -/
def State.modShadow (s : State) (h : BitVec 32) (f : Session → Session) : State :=
  { s with sess := { s.sess with shadow := s.sess.shadow.map fun x => if x.port = s.me && x.handle = h then f x else x } }

/-- TWIN_TOKEN (R425): the entry goes into the shadow ring and behind the session's history. -/
def execTwinToken (handle : BitVec 32) (e : RingEntry) (s : State) : Res :=
  .next (if !s.twinned then s
    else
      let s := match s.ringBase s.me with
        | some base => s.classWrite 3#2 (base + 1024 * slotOfHandle handle + 16 * (e.outIndex.toNat % 64)) (leBytes 16 (ringEncode e))
        | none => s
      s.modShadow handle fun x => { x with ring := SMap.insert x.ring (e.outIndex.toNat % 64) e, history := x.history ++ [e] })

/-! ## Commits on the twin side (R429) -/

/-- What the joint allocation gave a session of the twin, as far as it is known here: frames, area and its blocks; otherwise a free value
(R422; notes/assumptions/46). -/
def State.twinGrant (s : State) (h : BitVec 32) : List (BitVec 32) × BitVec 32 × Nat :=
  match s.ae.twinUsed.find? fun e => e.port = s.me && e.handle = h with
  | some e => (e.frames, e.area, e.areaLen)
  | none => ([], BitVec.ofNat 32 (Config.freeNat (h.toNat + s.free)), 0)

/-- A session of the twin as its first proof record shows it. -/
def State.shadowNew (s : State) (inst : BitVec 16) (r : SessionRec) : Session :=
  let g := s.twinGrant r.handle
  let t : OpenTerms := ⟨r.seed, r.lp, r.lo, r.ttft, r.cadence, r.grace, r.cclass⟩
  { handle := r.handle, client := 0#512, port := s.me, ep := r.endpoint, terms := t, inst := inst,
    admAt := BitVec.ofNat 48 (r.first.toNat - 1 - chunks r.lp.toNat r.chunk.toNat), first := r.first, chunk := r.chunk, pageLog2 := r.pageLog2,
    frames := g.1, area := g.2.1, areaLen := g.2.2, order := 0, rcvd := r.promptRcvd.toNat, commitEnd := r.commitEnd.toNat,
    pageCount := r.pageCount.toNat, outNext := r.outNext.toNat, sendNext := r.outNext.toNat, held := [], ring := [],
    breaches := r.breaches.toNat, shifts := r.shifts.toNat, lastRow := r.proof, marks := [], proofRec := some r, history := [], resumes := [],
    replay := none, suspended := none, incomplete := [], held2 := false, endAt := none, closing := none, valid := none }

/-- A record takes the place of a session's proof record; its history before the new proof point goes, and a closed session is dropped. -/
def State.takeRecord (inst : BitVec 16) (s : State) (r : SessionRec) : State :=
  if r.state = 3#4 then { s with sess := { s.sess with shadow := s.sess.shadow.filter fun x => x.port ≠ s.me || x.handle ≠ r.handle } }
  else if (s.shadowOf r.handle).isSome then
    s.modShadow r.handle fun x =>
      { x with proofRec := some r, first := r.first, rcvd := r.promptRcvd.toNat, commitEnd := r.commitEnd.toNat, pageCount := r.pageCount.toNat,
               outNext := r.outNext.toNat, breaches := r.breaches.toNat, shifts := r.shifts.toNat, lastRow := r.proof, ep := r.endpoint,
               history := x.history.filter fun e => r.commitEnd.toNat ≤ r.lp.toNat + e.outIndex.toNat }
  else
    let x := s.shadowNew inst r
    { s with sess := { s.sess with shadow := s.sess.shadow ++ [x] } }

/-- Is an item one of a commit? -/
def LandItem.isOf (i : LandItem) (stroke : Stroke) (inst : BitVec 16) : Bool :=
  match i with
  | .data n k _ _ => n = stroke && k = inst
  | .recs n k _ => n = stroke && k = inst

/-- A landing item applied to the shadow. -/
def State.applyLand (s : State) (i : LandItem) : State :=
  match i with
  | .data _ _ a gs => s.writeShadow a gs
  | .recs _ inst rs => rs.foldl (State.takeRecord inst) s

/-- The landing data of a commit applied. -/
def State.applyCommit (s : State) (stroke : Stroke) (inst : BitVec 16) : State :=
  let mine := s.twin.landing.filter fun i => i.isOf stroke inst
  let s := s.modTwin fun t => { t with landing := t.landing.filter fun i => !i.isOf stroke inst }
  mine.foldl State.applyLand s

/-! ## Handovers (R438) -/

/-- An endpoint of which only what the endpoint table of R382 carries is known here: what the model does not keep of it is a free value
(notes/assumptions/46). -/
def State.freeEndpoint (s : State) : Endpoint :=
  let n := s.free
  { client := BitVec.ofNat 512 (Config.freeNat n), th := BitVec.ofNat 512 (Config.freeNat (n + 1)), keyIn := Config.random256 (n + 2),
    keyOut := Config.random256 (n + 3), conn := BitVec.ofNat 32 (Config.freeNat (n + 4)),
    addr := ⟨(Config.freeNat (n + 5)) % 2 = 1, BitVec.ofNat 128 (Config.freeNat (n + 6)), BitVec.ofNat 16 (Config.freeNat (n + 7))⟩,
    pace := Config.freeNat (n + 8), rxPoint := Config.freeNat (n + 9), rxHeld := [], txNext := Config.freeNat (n + 10) % 2 ^ 40, unacked := [], pacedq := [],
    srtt := none, rttvar := 0, bucket := 65536, bucketAt := s.time.mono, window := Config.freeNat (n + 11), retrans := 0, abandoned := 0,
    opens := [], bulk := none, ackDue := none, resume := true }

/-- An endpoint number made live if it is not: its next packet is to carry RESUME (R382). -/
def State.adoptEndpoint (s : State) (num : Nat) : State :=
  match s.ep num with
  | some _ => s.modEp num fun e => { e with resume := true }
  | none => { s with trans := { s.trans with eps := SMap.insert s.trans.eps num s.freeEndpoint }, free := s.free + 12 }

/-- RESUME on an endpoint: an ACK whose SEQ and LOW begin the next but one run of 2^40 (R383). -/
def State.sendResume (s : State) (num : Nat) : State :=
  match s.ep num with
  | none => s
  | some e =>
    let q := ((e.txNext - 1) / 2 ^ 40 + 2) * 2 ^ 40
    let h := e.header num 6 q q 0 true
    let s := s.modEp num fun e => { e with txNext := q + 1, resume := false, ackDue := none }
    s.emitAst { hdr := h, msgs := [], tag := astTag e.keyOut 1 h [], src := e.addr }

/-- Guest endpoints without sessions end. -/
def State.dropGuests (s : State) : State :=
  let used : List Nat := s.sess.list.map fun x => x.ep.toNat
  let keep (e : Nat × Endpoint) : Bool := e.1 < 64 || used.contains e.1
  { s with trans := { s.trans with eps := s.trans.eps.filter keep } }

/-- A ledger entry of a session known here, as it runs from a stroke on. -/
def State.ledgerOf (s : State) (x : Session) (at_ : Nat) (replays : List Stroke) : LedgerEntry :=
  { handle := x.handle, port := x.port, terms := x.terms, inst := x.inst, admAt := x.admAt, first := x.first, chunk := x.chunk,
    pageLog2 := x.pageLog2, frames := x.frames,
    frameLen := s.frameBlocks x.inst x.terms x.pageLog2.toNat x.chunk.toNat, area := x.area, areaLen := x.areaLen,
    begin_ := BitVec.ofNat 48 (at_ - x.commitEnd / max 1 x.chunk.toNat), stop := none, replays := replays, held := x.held2, drained := [],
    released := false, ring := x.ringMode }

/-- Has a session of the twin's side sent its last output (R376)? -/
def Session.finished (x : Session) : Bool := (x.history ++ x.ring.map (·.2)).any (·.fin)

/-- The shadow sessions of an instance with a proof and output to come, as sessions this module runs from a handover on. -/
def State.adoptShadow (s : State) (inst : BitVec 16) (held : Bool) : State :=
  let mine := s.sess.shadow.filter fun x => x.inst = inst && x.proofRec.isSome && !x.finished
  let s := { s with sess := { s.sess with shadow := s.sess.shadow.filter fun x => x.inst ≠ inst } }
  mine.foldl (fun s x =>
    let num := if held then 64 + x.ep.toNat % 64 else x.ep.toNat % 64
    let mark : Mark := ⟨x.lastRow, x.commitEnd, x.pageCount, x.rcvd⟩
    let y := { x with held2 := held, ep := BitVec.ofNat 8 num, order := s.sess.nextOrd, marks := SMap.insert x.marks 1 mark,
                      sendNext := x.outNext, history := [] }
    let s := (s.adoptEndpoint num).addSession y
    if s.isManager then { s with ae := { s.ae with ledger := s.ae.ledger ++ [s.ledgerOf y s.time.stroke.toNat []],
                                                   twinUsed := s.ae.twinUsed.filter fun e => e.key ≠ y.key } } else s) s

/-- The handover of an instance that this module waits to take, its last proof stroke h − 1. -/
def State.takingAt (s : State) (inst : BitVec 16) (p : Stroke) : Bool :=
  s.twin.handovers.any fun h => !h.giving && h.inst = inst && h.h.toNat = p.toNat + 1

/-- The instance is taken back, or taken for a twin that detaches, once the commit of h − 1 has been applied: sessions, endpoints and charges move. -/
def State.completeTaking (s : State) (inst : BitVec 16) (p : Stroke) : State :=
  let held := !s.twin.away.contains inst
  let s := s.adoptShadow inst held
  let s := s.modTwin fun t =>
    { t with handovers := t.handovers.filter (fun h => h.giving || h.inst ≠ inst), away := t.away.filter (· ≠ inst),
             holding := if held then addOnce t.holding inst else t.holding }
  let s := s.trans.eps.foldl (fun s e => if e.2.resume then s.sendResume e.1 else s) s
  let s := if (s.ledInsts.contains inst) && s.closeAt p.toNat ≤ s.time.ft.toNat then (s.buildTable inst (p.toNat + 1)).admitLate else s
  s.pairSettle

/-- COMMIT (R429) of a stroke and instance: the lead forwards it to the instance's other modules; each applies its landing data and answers; the last
commit before a handover hands the instance over. -/
def execCommit (c : CommitRec) (s : State) : Res :=
  .next (if !s.twinned then s
    else
      let inst := if c.inst = 0xFFFF#16 then s.jobInst.getD 0xFFFF#16 else c.inst
      let s := if ((s.instRec inst).map (·.lead)) = some s.me then
          ((s.instModules inst).filter (· ≠ s.me)).foldl (fun s m => s.send m (.commit c)) s
        else s
      let s := (s.applyCommit c.stroke c.inst).emit (.twin (.committed c))
      if s.takingAt c.inst c.stroke then s.completeTaking c.inst c.stroke else s)

/-- Does an instance give its sessions to the twin after a stroke, so that its commit is due whatever it proved? -/
def State.givesAfter (s : State) (i : BitVec 16) (n : Stroke) : Bool :=
  s.twin.handovers.any fun h => h.giving && h.inst = i && h.h.toNat = n.toNat + 1

/-- Are an instance's layer-1 proofs of a stroke complete on this module, with something to commit? -/
def State.proved (s : State) (n : Stroke) (i : BitVec 16) : Bool :=
  !s.su.failed.contains i && s.twin.phase ≠ .unpaired && n.toNat ≤ s.su.doneWork.toNat &&
    ((s.capture 1 i n).any (·.closed) || s.givesAfter i n)

/-- An instance's lead sends COMMIT once every module of the instance has completed its layer-1 proofs of the stroke (R429). -/
def State.tryCommit (s : State) (n : Stroke) (i : BitVec 16) : State :=
  let rest := (s.instModules i).filter (· ≠ s.me)
  let known := s.twin.commits.any fun c => c.stroke = n && c.inst = i
  if s.ledInsts.contains i && s.proved n i && !known && rest.all fun m => s.twin.proofDone.contains (m, n, i) then
    let k : BitVec 32 := BitVec.ofNat 32 (((s.capture 1 i n).map fun c => c.copied.length).getD 0)
    (s.modTwin fun t => { t with commits := t.commits ++ [⟨n, i, k⟩], proofDone := t.proofDone.filter fun d => d.2 ≠ (n, i) }).emit
      (.twin (.commit ⟨n, i, k⟩))
  else s

/-- An instance whose layer-1 proofs of a stroke are complete here: its lead commits when it may, any other module tells the lead (R429). -/
def commitInst (n : Stroke) (s : State) (i : BitVec 16) : State :=
  if s.ledInsts.contains i then s.tryCommit n i
  else if s.proved n i then s.send (((s.instRec i).map (·.lead)).getD s.me) (.report (.proofDone n i 1))
  else s

/-- The mark of a record. -/
def recMark (r : SessionRec) : Mark := ⟨r.proof, r.commitEnd.toNat, r.pageCount.toNat, r.promptRcvd.toNat⟩

/-- The key of a proof part's session. -/
def ProofPart.key (p : ProofPart) : SessKey := ⟨p.port, p.record.handle⟩

/-- The marks of a layer advance to the records of a committed proof (R424, R429). -/
def State.advanceMarks (s : State) (layer : Nat) (rs : List ProofPart) : State :=
  rs.foldl (fun s r => s.modSession r.key fun x => { x with marks := SMap.insert x.marks layer (recMark r.record) }) s

/-- A ledger entry that changes sides: `held` says that a side other than its session's own runs it. -/
def LedgerEntry.flip (e : LedgerEntry) : LedgerEntry := { e with held := !e.held }

/-- The sessions of an instance that this module ran leave it for its twin: those held for it, or at a detach its own. They live on as its shadow. -/
def State.completeGiving (s : State) (inst : BitVec 16) : State :=
  let back := s.twin.holding.contains inst
  let mine (x : Session) : Bool := x.inst = inst && x.held2 == back && x.valid.isNone
  let gone := (s.sess.list.filter mine).map fun x => { x with held2 := false, ep := BitVec.ofNat 8 (x.ep.toNat % 64), held := [], replay := none }
  let s := { s with sess := { s.sess with list := s.sess.list.filter fun x => !mine x, shadow := s.sess.shadow ++ gone } }
  let gs := gone.map (·.key)
  let moved := s.ae.ledger.filter fun e => gs.contains e.key
  let s := { s with ae := { s.ae with ledger := s.ae.ledger.filter (fun e => !gs.contains e.key), twinUsed := s.ae.twinUsed ++ moved.map LedgerEntry.flip } }
  let s := s.modTwin fun t =>
    { t with handovers := t.handovers.filter (fun h => !h.giving || h.inst ≠ inst), holding := t.holding.filter (· ≠ inst),
             away := if back then t.away else addOnce t.away inst }
  (s.noteOpen.dropGuests).pairSettle

/-- Every session has committed again since the twin lost what it had: the pair no longer counts as exposed for it (Table 16.9). -/
def State.endReproving (s : State) : State :=
  if s.twin.reproving && s.sess.list.all fun x => x.closing.isSome || x.valid.isSome || (SMap.find x.marks 1).isSome then
    (s.modTwin fun t => { t with reproving := false }).tell (.twinPort true)
  else s

/-- A cold reset at the twin: every mark of layer 1 and every job proof there is gone, and the pair counts as exposed until each session has committed again (Table 16.9). -/
def State.twinLost (s : State) : State :=
  let s := { s with job := { s.job with committed := s.job.committed.filter (fun k => k.1 ≠ 1), fetch := none } }
  ((s.mapSessions fun x => { x with marks := SMap.erase x.marks 1 }).modTwin fun t => { t with reproving := true }).tell (.twinPort false)

/-- COMMITTED (R429): the proofing side advances its marks; the answer for h − 1 completes a handover on the holder's side. -/
def execCommitted (c : CommitRec) (s : State) : Res :=
  .next (if !s.twin.commits.any (fun o => o.stroke = c.stroke && o.inst = c.inst) && (s.capture 1 c.inst c.stroke).isNone then s
    else
      let recs := ((s.capture 1 c.inst c.stroke).map (·.recs)).getD []
      let s := s.modTwin fun t =>
        { t with commits := t.commits.filter (fun o => o.stroke ≠ c.stroke || o.inst ≠ c.inst),
                 captures := t.captures.filter fun k => k.layer ≠ 1 || k.inst ≠ c.inst || k.point ≠ c.stroke }
      if c.inst = 0xFFFF#16 then s.send (((s.jobInst.bind s.instRec).map (·.lead)).getD s.me) (.report (.proofDone c.stroke c.inst 1))
      else
        let s := (s.advanceMarks 1 recs).endReproving
        if s.twin.handovers.any fun h => h.giving && h.inst = c.inst && h.h.toNat = c.stroke.toNat + 1 then s.completeGiving c.inst else s)

/-! ## Relays (R422, R459) -/

/-- The TUNING section of the plate in effect. -/
def State.tuning (s : State) : Option Tuning := s.boot.plate.bind fun p => p.tuning

/-- Granules of the job state: the ranges and the header region (R443). -/
def Tuning.granules (t : Tuning) : List Nat :=
  (List.range ((128 + 64 * t.groups.length + 127) / 128)).map (fun i => gaGranule t.jobBase + i) ++
    t.ranges.flatMap fun r => (List.range r.granules.toNat).map fun i => gaGranule r.addr + i

/-- Job state homed at this module. -/
def State.jobGranules (s : State) : List Nat := match s.tuning with
  | some t => t.granules.filter s.homedHere
  | none => []

/-- The bytes of a granule in its frame at its home. -/
def State.granuleNow (s : State) (a : GAddr) : List Byte :=
  match s.homeOf (gaBlock a) with
  | some h => s.mem.mem.readN (h.2 * blockBytes + gaInBlock a) 128
  | none => List.replicate 128 0#8

/-- The job state that this module holds for its twin, sent back as TWIN DATA of a job proof's step, and the word that this is all of it (R459). -/
def State.returnJob (s : State) (step : Stroke) : State :=
  (s.jobGranules.foldl (fun s g => s.emit (.twin (.data step 0xFFFF#16 (granuleAddr g) [granuleOf (s.granuleNow (granuleAddr g))]))) s).emit
    (.twin (.relay (.jobBack step)))

/-- All of a job proof that was asked back of the twin has come. -/
def State.jobReturned (s : State) (step : Stroke) : State :=
  { s with job := { s.job with fetch := s.job.fetch.map fun f => (f.1, f.2 || f.1 = step.toNat) } }

/-- RELAY (R422, R459): a record for this module itself takes effect, and a manager's is forwarded to this module's own manager. -/
def execRelay (r : RelayRec) (s : State) : Res :=
  .next (if !s.twinned then s
    else match r with
      | .shadowLost => s.twinLost
      | .jobAsk k => s.returnJob k
      | .jobBack k => s.jobReturned k
      | r => s.send s.ae.manager (.relay r))

/-- HANDOVER (R438, R439): an instance is to change sides at stroke h. A module of the instance notes it and tells its twin; the manager notes it for its
ledger and tells the instance's modules, another module tells its manager, and one that detaches notes it for its blocks. -/
def State.handover (o : HandoverOp) (h : Stroke) (s : State) : State :=
  let member := (s.instModules o.inst).contains s.me
  if !s.twinned || s.twin.handovers.any (fun x => x.inst = o.inst) || !(member || s.isManager || s.twin.detaching) then s
  else
    let s := s.modTwin fun t => { t with handovers := t.handovers ++ [⟨o.inst, h, !o.taking⟩] }
    let s := if member then s.emit (.twin (.handover ⟨o.inst, !o.taking⟩ h)) else s
    if s.isManager then ((s.instModules o.inst).filter (· ≠ s.me)).foldl (fun s m => s.send m (.handover o h)) s
    else s.send s.ae.manager (.handover o h)

/-- HANDOVER. -/
def execHandover (o : HandoverOp) (h : Stroke) (s : State) : Res := .next (s.handover o h)

/-- At stroke h the handover of an instance that does not run on this module is over here: the manager's ledger and the joint allocation change sides. -/
def settleHandover (s : State) (k : HandoverState) : State :=
  let back := if k.giving then s.ae.ledger.any (fun e => e.inst = k.inst && e.held) else s.twin.away.contains k.inst
  let mine (e : LedgerEntry) : Bool := e.inst = k.inst && e.held == back
  let stay (l : List LedgerEntry) := l.filter fun e => !mine e
  let go (l : List LedgerEntry) := (l.filter mine).map LedgerEntry.flip
  let led := s.ae.ledger
  let used := s.ae.twinUsed
  let s := if !s.isManager then s
    else if k.giving then { s with ae := { s.ae with ledger := stay led, twinUsed := used ++ go led, dirty := true } }
    else { s with ae := { s.ae with ledger := led ++ go used, twinUsed := stay used, dirty := true } }
  s.modTwin fun t =>
    { t with handovers := t.handovers.filter (· ≠ k),
             away := if back then t.away.filter (· ≠ k.inst) else if k.giving then addOnce t.away k.inst else t.away }

/-- The handovers of other modules' instances that are due at a boundary. -/
def State.settleHandovers (s : State) : State :=
  (s.twin.handovers.filter fun k => !s.instNums.contains k.inst && k.h.toNat ≤ s.time.stroke.toNat).foldl settleHandover s

/-! ## The link goes down (R420) -/

/-- Layer-1 job proofs that are not committed are abandoned and counted (R457); one that was asked back is to be asked again. -/
def State.abandonJob (s : State) : State :=
  let open1 := s.job.open_.filter fun k => k.1 = 1
  let s := s.count (modCtr 0x0073 0) open1.length
  { s with job := { s.job with open_ := s.job.open_.filter (fun k => k.1 ≠ 1), fetch := none } }

/-- TWIN_LINK_DOWN (R420): the pair is UNPAIRED; uncommitted landing data and layer-1 captures go, marks stay; DPROOFs that waited go on. -/
def execTwinLinkDown (s : State) : Res :=
  .next (if !s.twinned then s
    else
      let s := s.dropLanding.modTwin fun t =>
        { t with phase := .unpaired, ackSent := false, ackGot := false, twinPair := 0#2, commits := [],
                 captures := t.captures.filter fun k => k.layer ≠ 1 }
      let s := if s.isManager then { s with ae := { s.ae with relayUp := false } } else s
      (List.range s.label.variant.parts).foldl State.runOn s.abandonJob)

/-! ## The proof writer (R427, R428, R429, R431) -/

/-- The bytes of a protected granule as of its capture: the touch buffer's, else the home's. -/
def State.captured (s : State) (a : GAddr) : List Byte :=
  match SMap.find s.mem.touch (gaGranule a) with
  | some g => granuleBytes g
  | none => s.granuleNow a

/-- A capture copied whole, its granules no longer protected unless another capture still needs them. -/
def State.copyCapture (s : State) (c : Capture) : State :=
  let got := c.left.map fun a => (a, s.captured a)
  let s := s.modCapture c.layer c.inst c.point fun k => { k with left := [], copied := k.copied ++ got }
  let still : List Nat := s.twin.captures.flatMap fun k => k.left.map gaGranule
  let free (g : Nat) : Bool := c.left.any (fun a => gaGranule a = g) && !still.contains g
  { s with mem := { s.mem with protect := s.mem.protect.filter (fun g => !free g), touch := s.mem.touch.filter fun t => !free t.1 } }

/-- A proof laid over the one before it: what the layer holds of an instance after a commit (R424, R431). -/
def overProof (old : List (GAddr × List Byte)) (new : List (GAddr × List Byte)) : List (GAddr × List Byte) :=
  (old.filter fun o => !new.any fun n => n.1 = o.1) ++ new

/-- Records of a proof over those before it. -/
def overRecords (old new : List ProofPart) : List ProofPart :=
  (old.filter fun o => !new.any fun n => n.key = o.key) ++ new

/-- A committed proof stored behind the last one of its layer and instance; the two newest are kept (R431). -/
def State.storeProof (s : State) (c : Capture) : State :=
  let same (p : StoredProof) : Bool := p.layer = c.layer && p.inst = c.inst && p.epoch = s.epoch
  let before := (s.boot.proofs.filter same).getLast?
  let job := c.inst = 0xFFFF#16
  let new : StoredProof :=
    { layer := c.layer, inst := c.inst, point := c.point, parts := if job then [] else overRecords ((before.map (·.parts)).getD []) c.recs,
      bytes := if job then c.copied else overProof ((before.map (·.bytes)).getD []) c.copied, epoch := s.epoch }
  let keep := before.toList ++ [new]
  { s with boot := { s.boot with proofs := s.boot.proofs.filter (fun p => !same p) ++ keep } }

/-- A capture of layer 2 or 3 that is wholly stored: its proof is committed and its marks advance; the job's lead hears of it (R429, R456). -/
def State.commitCapture (s : State) (c : Capture) : State :=
  let s := s.storeProof c
  let s := s.modTwin fun t => { t with captures := t.captures.filter fun k => k.layer ≠ c.layer || k.inst ≠ c.inst || k.point ≠ c.point }
  if c.inst = 0xFFFF#16 then s.send (((s.jobInst.bind s.instRec).map (·.lead)).getD s.me) (.report (.proofDone c.point c.inst c.layer))
  else s.advanceMarks c.layer c.recs

/-- PROOF_WRITER (R428): captured granules are copied at class 3, whole proofs of layer 2 are stored and those of layer 3 put into the store, and
writes that waited for the touch buffer go on. -/
def execProofWriter (s : State) : Res :=
  let s := (s.twin.captures.filter fun c => c.layer = 2 || c.layer = 3).foldl State.copyCapture s
  let s := (s.twin.captures.filter fun c => c.layer = 2 && c.closed).foldl State.commitCapture s
  let s := s.putParts.foldl State.storePut s
  .next (s.retryWaits fun w => w.why = .touchFull)

end Sys2Proof.Machine
end

