-- ==== Sys2Proof/Machine/Store.lean ====
section
/-! DEFINITION. Store.lean: what the shared store sends a module that is its AST client: the handshake's answer, objects and the outcome of a PUT
(spec/16 R429, R432; spec/15 R408; spec/20 R506). -/
namespace Sys2Proof.Machine

/-- A change of the association with the store. -/
def State.modStore (s : State) (f : StoreLink → StoreLink) : State := { s with trans := { s.trans with store := f s.trans.store } }

/-- A handshake with the store forgotten; it begins again while something is outstanding (DESIGN CHOICE, notes/assumptions/53). -/
def State.retryStore (s : State) : State :=
  let s := s.modStore fun l => { l with phase := 0 }
  if s.trans.store.getting.isEmpty && s.trans.store.putting.isEmpty then s else s.wantStore

/-- HELLO_D of the store (R355, R356, R432): its key is the one that STORE_KEY names and its signature stands; FINISH goes out, and the association is
live. -/
def execHelloD (h : HelloD) (s : State) : Res :=
  let l := s.trans.store
  let th := handshakeHash s.storeHelloC h
  let known : Bool := s.proofRec.any fun p => p.storeKey = keyHash h.pubKey && p.storeKey ≠ 0#512
  .next (if l.phase ≠ 1 || h.hdr.conn ≠ l.conn then s
    else if !known || !Config.mldsaVerify h.pubKey (deviceBytes th) h.sig then s.retryStore
    else
      let ks := endpointKeys (Config.mlkemDecaps l.ekey h.ctext) th
      let f : Finish := { hdr := handshakeHdr 3 h.endpoint l.conn 4627, bodyLen := 4627, sig := Config.mldsaSign s.label.identity (clientBytes' th h.sig),
                          src := s.storeAddr }
      let s := s.modStore fun l => { l with phase := 2, number := h.endpoint, keyOut := ks.1, keyIn := ks.2, txNext := 1 }
      (s.emit (.store (.finish f))).flushStore)

/-- REJECT of the store (R357, R432). -/
def execReject (conn : BitVec 32) (_reason : BitVec 8) (s : State) : Res :=
  .next (if s.trans.store.phase = 1 && conn = s.trans.store.conn then s.retryStore else s)

/-- A fetch has failed: of an object, the module stops with code 0x8D (R408). -/
def State.fetchFailed (s : State) (name : BitVec 64) : State :=
  let s := s.modStore fun l => { l with getting := l.getting.filter (· ≠ name) }
  let s := { s with boot := { s.boot with flash := s.boot.flash.filter fun f => f.name ≠ name || f.epoch ≠ 0#16 } }
  let wanted : Bool := s.boot.plate.any fun p => p.objects.any fun o => o.name = name
  if wanted && s.boot.standing = .starting then s.hold 0x8D else s

/-- The bytes of an object fetched so far; they stand in bulk flash under no binding epoch until they are whole. -/
def State.fetched (s : State) (name : BitVec 64) : List Byte :=
  ((s.boot.flash.find? fun f => f.name = name && f.epoch = 0#16).map (·.data)).getD []

/-- An object of bulk flash set. -/
def State.putFlash (s : State) (o : FlashObj) : State :=
  let keep (f : FlashObj) : Bool := f.name ≠ o.name || (o.epoch = 0#16 && f.epoch ≠ 0#16)
  { s with boot := { s.boot with flash := s.boot.flash.filter keep ++ [o] } }

/-- A whole object: written to bulk flash under the flash key; if its DIGEST still differs the fetch has failed, and after the last one the objects are
loaded (R408). -/
def State.finishFetch (s : State) (name : BitVec 64) (data : List Byte) : State :=
  let s := s.putFlash ⟨name, data, s.epoch⟩
  let s := s.modStore fun l => { l with getting := l.getting.filter (· ≠ name) }
  let bad : Bool := s.boot.plate.any fun p => p.objects.any fun o => o.name = name && (s.goodObject o).isNone
  if bad then s.fetchFailed name
  else if s.trans.store.getting.isEmpty && s.boot.standing = .starting && s.boot.step = 9 && !s.boot.loaded then s.loadObjects else s

/-- STORE_DATA (R432, R506): the next piece of an object asked for; a piece of a proof object whose tag fails is a failed fetch. -/
def execStoreData (d : StoreData) (s : State) : Res :=
  .next (if s.trans.store.phase ≠ 2 || !s.trans.store.getting.contains d.name then s
    else if d.name.getLsbD 63 && s.proofTag d.name d.offset d.total d.data ≠ d.tag then s.fetchFailed d.name
    else
      let got := s.fetched d.name
      if d.offset.toNat ≠ got.length then s
      else
        let all := got ++ d.data
        if d.total.toNat ≤ all.length then
          (if d.name.getLsbD 63 then s.fetchFailed d.name else s.finishFetch d.name all)
        else s.putFlash ⟨d.name, all, 0#16⟩)

/-- STORE_DONE (R429, R432): a PUT stored commits the captures of its part; one that the store could not take is put again by the proof writer; a GET
of what the store does not have has failed. -/
def execStoreDone (name : BitVec 64) (status : BitVec 8) (s : State) : Res :=
  .next (match s.trans.store.putting.find? fun q => s.proofName q.1.toNat = name with
    | some q =>
      let s := s.modStore fun l => { l with putting := l.putting.filter (· ≠ q) }
      if status = 0#8 then (s.twin.captures.filter fun c => c.layer = 3 && c.part = q && c.closed).foldl State.commitCapture s else s
    | none => if s.trans.store.getting.contains name && status ≠ 0#8 then s.fetchFailed name else s)

end Sys2Proof.Machine
end

