-- ==== Sys2Proof/Machine/Power.lean ====
section
/-! DEFINITION. Power.lean: the power controller, supply levels, temperature and the trip, the auxiliary domain and its outputs, and the claim on
the configuration flash (spec/19 R483 to R498, spec/22 R548 to R552). -/
namespace Sys2Proof.Machine

/-! ## The power stage (R483 to R487) -/

/-- The clock of the PC's 10 ms grid: FT once it is set, the own clock before. -/
def State.gridTime (s : State) : Nat := if s.time.ftSet then s.time.ft.toNat else s.time.mono.toNat

/-- The clocks reach an instant of that grid. -/
def State.reachGrid (s : State) (t : Nat) : State := if s.time.ftSet then s.reach t else s.reachMono t

/-- The next multiple of n ns, now included where the last reading was not taken at it. -/
def State.nextGrid (s : State) (n : Nat) (last : Option Nat) : Nat :=
  let t := (s.gridTime + n - 1) / n * n
  if last = some t then t + n else t

/-- Does the mean of the newest n 10 ms averages, or of those that exist, exceed a limit in 0.1 W (R484)? -/
def meanOver (avgs : List Nat) (n limit : Nat) : Bool := let l := avgs.take n; limit * l.length < l.sum

/-- POWER_LIMIT in 0.1 W. -/
def State.powerLimit (s : State) : Nat := 10 * s.domain.powerLimit.toNat

/-- Is the limit of the 1 s average exceeded? -/
def State.over1s (s : State) : Bool := meanOver s.pwr.avgs 100 (s.powerLimit + 1000)
/-- Is the limit of the 10 s average exceeded? -/
def State.over10s (s : State) : Bool := meanOver s.pwr.avgs 1000 s.powerLimit
/-- Do both averages allow a step down (R485)? -/
def State.underBoth (s : State) : Bool := !meanOver s.pwr.avgs 100 (s.powerLimit + 500) && !meanOver s.pwr.avgs 1000 (s.powerLimit - 250)

/-- The power stage after a 10 ms multiple: it holds during a supply warning (R485, R491). -/
def State.nextStage (s : State) : Nat :=
  if s.pwr.warning then s.pwr.pstage
  else if s.over1s || s.over10s then min (s.pwr.pstage + 1) 6
  else if s.underBoth then s.pwr.pstage - 1 else s.pwr.pstage

/-- A power event opens, deepens and closes with the stage; its reason is the average that first exceeded, the 1 s one of both (R497). -/
def State.moveStage (s : State) (new : Nat) : State :=
  let old := s.pwr.pstage
  let e1 := s.over1s
  let e10 := s.over10s
  let first : Bool × Bool :=
    if s.pwr.over1 || s.pwr.over10 then (s.pwr.over1, s.pwr.over10) else if e1 then (true, false) else (false, e10)
  let s := { s with pwr := { s.pwr with pstage := new, over1 := first.1, over10 := first.2 } }
  let reason := if first.1 then 1 else 2
  if old = 0 && new ≠ 0 then s.openThrottle reason 0xFF new
  else if old < new then s.deepen reason 0xFF new
  else if new = 0 then
    let s := if old = 0 then s else (s.closeThrottle 1 0xFF).closeThrottle 2 0xFF
    if e1 || e10 then s else { s with pwr := { s.pwr with over1 := false, over10 := false } }
  else s

/-- The tenants' power reading: the mean over each whole FT second (R498). -/
def State.tenantPower (s : State) (p : Nat) : State :=
  let sum := s.pwr.secSum + p
  let n := s.pwr.secCount + 1
  if s.gridTime % 1000000000 = 0 then { s with pwr := { s.pwr with secPower := sum / n, secSum := 0, secCount := 0 } }
  else { s with pwr := { s.pwr with secSum := sum, secCount := n } }

/-- A limit that is no longer exceeded at stage 6 ends the repetition of the power-floor alarm (R487). -/
def State.endFloor (s : State) : State :=
  if s.pwr.pstage = 6 && (s.over1s || s.over10s) then s else { s with pwr := { s.pwr with floorAt := none } }

/-- POWER_STAGE_UPDATE (R483 to R485): the 10 ms average of input power, in 0.1 W, enters averages and energy (0.1 W over 10 ms is 1 mJ) while
the main rails are on; the other readings are kept for the sideband. -/
def execPowerStageUpdate (r : PowerReading) (s : State) : Res :=
  .next (if !s.pwr.aux then s
    else
      let t := s.nextGrid 10000000 s.pwr.powerAt
      let s := s.reachGrid t
      let p := r.power.toNat
      let s := { s with pwr := { s.pwr with now := r, powerAt := some t } }
      if !s.pwr.rails then s else
      let s := { s with pwr := { s.pwr with avgs := (p :: s.pwr.avgs).take 1000, energy := s.pwr.energy + BitVec.ofNat 64 p } }
      ((s.tenantPower p).moveStage s.nextStage).endFloor)

/-- POWER_FLOOR (R487): at stage 6 with a limit still exceeded, once per second. -/
def execPowerFloor (s : State) : Res :=
  .next (if s.pwr.pstage ≠ 6 || !(s.over1s || s.over10s) then s
    else
      let s := match s.pwr.floorAt with
        | some t => s.reachMono (t.toNat + 1000000000)
        | none => s
      { s with pwr := { s.pwr with floorAt := some s.time.mono } }.alarm (devNotice 0x07 0x40 0x32 6))

/-! ## Stretch time and supply sag (R489, R491, R492, Table 13.10) -/

/-- Part of an interval of FT that falls into stroke k. -/
def State.overlap (s : State) (k t0 t1 : Nat) : Nat := min t1 (s.strokeStart (k + 1)) - max t0 (s.strokeStart k)

/-- An interval joined to intervals that lie apart: those that it meets become one with it, so that no time counts twice. -/
def joinSpan (l : List (Word64 × Word64)) (t0 t1 : Nat) : List (Word64 × Word64) :=
  let meets (x : Word64 × Word64) : Bool := x.1.toNat ≤ t1 && t0 ≤ x.2.toNat
  let hit := l.filter meets
  l.filter (fun x => !meets x) ++
    [(BitVec.ofNat 64 (hit.foldl (fun m x => min m x.1.toNat) t0), BitVec.ofNat 64 (hit.foldl (fun m x => max m x.2.toNat) t1))]

/-- An interval of FT during which the clock of some die was stretched. Intervals that ended more than 64 strokes ago are dropped, since H is at
most 64. -/
def State.addStretch (s : State) (t0 t1 : Nat) : State :=
  if !s.time.ftSet then s
  else
    let kept := s.su.stretch.filter fun x => s.strokeStart (s.time.stroke.toNat - 64) ≤ x.2.toNat
    { s with su := { s.su with stretch := joinSpan kept t0 t1 } }

/-- The intervals so far, that of a warning still in force included. -/
def State.stretchSpans (s : State) : List (Word64 × Word64) :=
  match s.pwr.open_.find? fun t => t.reason = 5#8 with
  | some t => joinSpan s.su.stretch (s.time.ft.toNat - (s.time.mono.toNat - t.mono.toNat)) s.time.ft.toNat
  | none => s.su.stretch

/-- Stretch time of a stroke so far: the FT time in it during which the clock of any die was stretched (R492). -/
def State.stretchOf (s : State) (k : Nat) : Nat := (s.stretchSpans.map fun x => s.overlap k x.1.toNat x.2.toNat).sum

/-- A sag beyond the conditions of Table 13.10 is exclusion 0x4: more than T in H strokes, or on a module that is EXPOSED or carries taken-over
sessions. -/
def State.sagCheck (s : State) : State :=
  let n := s.time.stroke.toNat
  let total := ((List.range s.domain.horizon.toNat).map fun i => s.stretchOf (n - i)).sum
  if s.periodNs < total || !s.twin.holding.isEmpty || (s.isManager && (s.info s.me).adm = .exposed) then s.beginExcl 4 none else s

/-- For a session with grace 0 every supply sag is beyond the conditions (Table 13.11). -/
def State.sagSessions (s : State) : State :=
  (s.sess.list.filter fun x => x.terms.grace = 0#8 && x.closing.isNone).foldl (fun s x => s.beginExcl 4 (some x.key)) s

/-- RAIL_DROOP (R489): the die's cycles were stretched for a time that ends now; the event is recorded. -/
def execRailDroop (part : BitVec 4) (us : BitVec 32) (s : State) : Res :=
  let p := part.toNat
  let ns := 1000 * us.toNat
  let t1 := s.time.ft.toNat
  let start := if s.time.ftSet then t1 - ns else 0
  inPart s p
    (if !s.pwr.rails then s
    else
      let s := s.eventAt (throttleNotice 6 p (coarseUs us.toNat)) (BitVec.ofNat 64 (start / 1000000 * 1000000))
      (s.addStretch (t1 - ns) t1).sagCheck)

/-- SUPPLY_WARNING (R491): main below 44.0 V. -/
def execSupplyWarning (mv : BitVec 17) (s : State) : Res :=
  .next (if !s.pwr.rails || s.pwr.warning || 44000 ≤ mv.toNat then s
    else (({ s with pwr := { s.pwr with warning := true } }.openThrottle 5 0xFF 0).sagSessions).sagCheck)

/-- SUPPLY_WARNING_END (R491, R492): main at or above 45.0 V for 100 µs. -/
def execSupplyWarningEnd (mv : BitVec 17) (s : State) : Res :=
  .next (match s.pwr.warning, s.pwr.open_.find? fun t => t.reason = 5#8 with
    | true, some t =>
      if mv.toNat < 45000 then s
      else
        let t1 := s.time.ft.toNat
        let s := s.addStretch (t1 - (s.time.mono.toNat - t.mono.toNat)) t1
        ({ s with pwr := { s.pwr with warning := false } }.closeThrottle 5 0xFF).sagCheck
    | _, _ => s)

/-! ## Main rails off (R491, R495, R548) -/

/-- The main rails go off: nothing volatile survives, only the auxiliary domain runs. Of the throttle events only the one that switches the rails
off goes on, until main power good (Table 19.6). A claim on the flash that waited is granted (R552). -/
def State.railsOff (s : State) (reason die : Nat) (start : Word64) : State :=
  let ev : OpenThrottle := ⟨BitVec.ofNat 8 reason, BitVec.ofNat 8 die, start, s.time.mono, 0#8⟩
  let s := s.restart
  { s with
    pwr := { s.pwr with rails := false, good := false, warning := false, pstage := 0, tstage := 0, over1 := false, over10 := false, hotFirst := none,
                        floorAt := none, powerAt := none, heatAt := none, outOff := [], open_ := [ev], grant := s.pwr.claim, secSum := 0, secCount := 0 },
    boot := { s.boot with code := if s.pwr.latch then 0x0C#8 else 0x00#8 } }

/-- SUPPLY_RESET (Table 19.2). -/
def execSupplyReset (s : State) : Res := .next (if s.pwr.rails then s.railsOff 8 0xFF s.ftOr0 else s)

/-- MAIN_OVERVOLTAGE (R548): as a supply reset. -/
def execMainOvervoltage (mv : BitVec 17) (s : State) : Res :=
  .next (if s.pwr.rails && 60000 < mv.toNat then s.railsOff 8 0xFF s.ftOr0 else s)

/-! ## Temperature (R494, R495) -/

/-- The thermal stage after a 10 ms multiple (Table 19.4). -/
def State.nextThermal (s : State) : Nat :=
  if s.pwr.cd.any fun t => (200 : Int) ≤ t then min (s.pwr.tstage + 1) 4
  else if s.pwr.cd.all fun t => t < 190 then s.pwr.tstage - 1 else s.pwr.tstage

/-- The thermal stage moves, and with it the DIE_THERMAL event of the die that first read 100 °C (Table 19.5). -/
def State.moveThermal (s : State) (new : Nat) : State :=
  let old := s.pwr.tstage
  let die := s.pwr.hotFirst.getD 0
  let s := { s with pwr := { s.pwr with tstage := new } }
  if old = 0 && new ≠ 0 then s.openThrottle 4 die new
  else if old < new then s.deepen 4 die new
  else if new = 0 && old ≠ 0 then { s.closeThrottle 4 die with pwr := { (s.closeThrottle 4 die).pwr with hotFirst := none } }
  else s

/-- Alarms of link dies that reach 105 °C, and of the inlet above 35 °C, once per crossing. -/
def State.heatAlarms (s : State) (ld : List Int) (inlet : Int) : State :=
  let s := ld.zipIdx.foldl (fun s x =>
    if 210 ≤ x.1 && (s.pwr.ld[x.2]?).all (fun o => o < 210) then s.alarm (devNotice 0x09 (0x40 + x.2) (dieUnit (0x40 + x.2) 0x32) 0) else s) s
  if 70 < inlet && !s.pwr.inletHigh then s.alarm (devNotice 0x08 0x40 0x32 0) else s

/-- DIE_TEMPERATURE_READ (R494): the reading of each die's hottest sensor, every 1 ms; the thermal stage moves at 10 ms multiples. -/
def execDieTemperatureRead (cd : List Int) (ld : List Int) (inlet : Int) (s : State) : Res :=
  .next (if !s.pwr.rails then s
    else
      let at_ := s.nextGrid 1000000 s.pwr.heatAt
      let s := s.reachGrid at_
      let s := s.heatAlarms (ld.take s.label.variant.linkDies) inlet
      let cd := cd.take s.label.variant.parts
      let hot := cd.findIdx? fun t => (200 : Int) ≤ t
      let s := { s with pwr := { s.pwr with cd := cd, ld := ld.take s.label.variant.linkDies, inlet := inlet, inletHigh := 70 < inlet,
                                            hotFirst := s.pwr.hotFirst <|> hot, heatAt := some at_ } }
      let s := if s.gridTime % 10000000 = 0 then s.moveThermal s.nextThermal else s
      if s.pwr.tstage = 0 && hot.isNone then { s with pwr := { s.pwr with hotFirst := none } } else s)

/-- THERMAL_TRIP (R495): the latch switches the rails off, records the die and counts; its record starts at FT 0. -/
def execThermalTrip (die : BitVec 8) (s : State) : Res :=
  .next (if !s.pwr.aux || !s.pwr.rails then s
    else
      let now := s.time.mono
      let recent := s.pwr.tripTimes.filter fun t => now.toNat ≤ t.toNat + 3600000000000
      let s := { s with pwr := { s.pwr with latch := true, tripDie := die, trips := s.pwr.trips + 1, tripTimes := recent ++ [now] } }
      s.railsOff 7 die.toNat 0#64)

/-- TRIP_LATCH_RELEASE (R495): after 60 s, unless it was the third trip within 1 h. -/
def execTripLatchRelease (s : State) : Res :=
  .next (if !s.pwr.latch || 3 ≤ s.pwr.tripTimes.length then s
    else
      let last := ((s.pwr.tripTimes.getLast?).map BitVec.toNat).getD 0
      let s := s.reachMono (last + 60000000000)
      { s with pwr := { s.pwr with latch := false }, boot := { s.boot with code := if s.boot.code = 0x0C#8 then 0x00#8 else s.boot.code } })

/-! ## The auxiliary domain (R549, R551, R552) -/

/-- AUX_DOMAIN_START: SMB_ADDR is sampled, the trip latch and count begin anew. -/
def execAuxDomainStart (addr : BitVec 3) (s : State) : Res :=
  .next (if s.pwr.aux then s
    else { s with pwr := { s.pwr with aux := true, auxAt := s.time.mono, smbAddr := addr, latch := false, trips := 0, tripDie := 0#8, tripTimes := [],
                                      grant := s.pwr.claim && !s.pwr.good } })

/-- AUX_DOMAIN_STOP: the sideband, the latch and the flash switch stop; main power good cannot be without it. -/
def execAuxDomainStop (s : State) : Res :=
  .next (if !s.pwr.aux then s
    else
      let s := if s.pwr.rails then s.railsOff 8 0xFF s.ftOr0 else s
      { s with pwr := { s.pwr with aux := false, latch := false, trips := 0, tripDie := 0#8, tripTimes := [], grant := false,
                                   open_ := [] },
               boot := { s.boot with code := 0x00#8 } })

/-- An auxiliary output that exists on this variant. -/
def State.outExists (s : State) (o : AuxOut) : Bool :=
  match o with
  | .fabric k => k.val < s.label.variant.linkDies
  | _ => true

/-- What an output powers has no link: the host port under exclusion 0x8, a fabric port with fault code 0x0E (R551). -/
def State.outLost (s : State) (o : AuxOut) : State :=
  match o with
  | .host => { s with trans := { s.trans with linkUp := false } }.beginExcl 8 none
  | .tracing => { s with obs := { s.obs with linkUp := false } }
  | .fabric k => (List.range 4).foldl (fun s i =>
      let port := 4 * k.val + i
      (s.alarm (linkNotice port 0x0E 15)).portDown port) s

/-- AUXILIARY_OUTPUT_FAULT (R551). -/
def execAuxiliaryOutputFault (o : AuxOut) (s : State) : Res :=
  if !s.outExists o then .fault .noSuchUnit
  else .next (if !s.pwr.rails || s.pwr.outOff.contains o then s
    else { s with pwr := { s.pwr with outOff := s.pwr.outOff ++ [o] } }.outLost o)

/-- AUXILIARY_OUTPUT_RETRY (R551): an output whose fault has cleared is on again; its ports train anew. -/
def execAuxiliaryOutputRetry (o : AuxOut) (faulty : Bool) (s : State) : Res :=
  if !s.outExists o then .fault .noSuchUnit
  else .next (if faulty then s else { s with pwr := { s.pwr with outOff := s.pwr.outOff.filter (· ≠ o) } })

/-- CFG_REQ (R552): granted while main power good is not declared, released when dropped. -/
def execCfgReq (claim : Bool) (s : State) : Res :=
  .next { s with pwr := { s.pwr with claim := claim, grant := claim && s.pwr.aux && !s.pwr.good } }

end Sys2Proof.Machine
end

