-- ==== Sys2Proof/Machine/Takeover.lean ====
section
/-! DEFINITION. Takeover.lean: takeover on both sides, manager succession, suspended sessions and detaching (spec/16 R433 to R442, spec/10 R266,
spec/17 R458). -/
namespace Sys2Proof.Machine

/-! ## Stopping work -/

/-- The job stops if its instance is one of these. -/
def State.haltJobOf (s : State) (insts : List (BitVec 16)) : State := if s.jobInst.any insts.contains then s.haltJob else s

/-- Rows of tables to come whose sessions take none any more go; so do rows set aside. -/
def State.cleanNext (s : State) : State :=
  let keep (r : BatchRow) : Bool := (s.rowSession r).any s.takesRows
  { s with su := { s.su with next := s.su.next.map fun t => { t with rows := t.rows.filter keep } },
           sess := { s.sess with carried := s.sess.carried.filter fun c => keep c.row } }

/-- The work of instances stops on this module: their streams issue nothing more in the work stroke, and no restore is due. -/
def State.stopInsts (s : State) (insts : List (BitVec 16)) : State :=
  let s := s.mapParts fun x => x.mapOwners fun o => { o with ended := insts.foldl addOnce o.ended }
  let keep (q : BitVec 16 × Stroke) : Bool := !insts.contains q.1
  let s := { s with su := { s.su with restore := s.su.restore.filter keep, doomed := s.su.doomed.filter keep } }
  serveAll (s.cleanNext.haltJobOf insts)

/-- A session suspended under an exclusion (R442). -/
def State.suspendOne (code : Nat) (s : State) (x : Session) : State :=
  if x.suspended.isSome || x.closing.isSome then s
  else (s.modSession x.key fun y => { y with suspended := some (s.time.mono, BitVec.ofNat 4 code), held := [], replay := none }).beginExcl code (some x.key)

/-- The sessions of instances suspended: they keep their charges and send nothing. -/
def State.suspendInsts (s : State) (insts : List (BitVec 16)) (code : Nat) : State :=
  ((s.sess.list.filter fun x => insts.contains x.inst && x.valid.isNone).foldl (State.suspendOne code) s).stopInsts insts

/-! ## The failing side (Table 16.8 step 1) -/

/-- The sessions of instances leave this module for the twin; those that it held for the twin go back to a twin that has caught up, else they are lost
under exclusion 0x6 (Table 16.9). -/
def State.giveUp (s : State) (insts : List (BitVec 16)) : State :=
  let lost := s.sess.list.filter fun x => insts.contains x.inst && x.held2 && s.twin.twinPair ≠ 3#2
  let s := lost.foldl (State.suspendOne 6) s
  let gone (x : Session) : Bool := insts.contains x.inst && x.suspended.isNone && x.valid.isNone
  let s := { s with sess := { s.sess with list := s.sess.list.filter fun x => !gone x } }
  let moved := s.ae.ledger.filter fun e => insts.contains e.inst
  let s := { s with ae := { s.ae with ledger := s.ae.ledger.filter (fun e => !insts.contains e.inst), twinUsed := s.ae.twinUsed ++ moved.map LedgerEntry.flip, dirty := true },
                    boot := { s.boot with passed := s.boot.passed.filter (fun i => !insts.contains i) } }
  let s := s.modTwin fun t =>
    { t with away := insts.foldl addOnce t.away, holding := t.holding.filter (fun i => !insts.contains i),
             handovers := t.handovers.filter fun h => !insts.contains h.inst }
  (s.noteOpen.dropGuests).stopInsts insts

/-- The failing side's part of a takeover on this module. -/
def State.takeoverHere (s : State) (t : TakeoverRec) : State :=
  let mine := t.insts.filter fun i => s.instNums.contains i || s.isManager
  if mine.isEmpty then s
  else
    let s := (s.event (devNotice 0x16 0x40 0x33 0)).giveUp mine
    s.modTwin fun w => { w with takeovers := w.takeovers ++ [⟨mine, t.detected, t.detected + 1#48, true, true⟩] }

/-- Can the manager order a takeover: twinned, and the path between the managers and its own pair up (R422, R433)? -/
def State.canOrder (s : State) (insts : List (BitVec 16)) : Bool :=
  s.twinned && s.ae.relayUp && (!(insts.any s.instNums.contains) || s.twin.phase ≠ .unpaired)

/-- Modules of the side that instances run on. -/
def State.modsOf (s : State) (insts : List (BitVec 16)) : List (BitVec 10) := (insts.flatMap s.instModules).eraseDups

/-- The manager orders the takeover of instances (R433): TAKEOVER goes to the twin manager as RELAY and to the instances' modules here. Where that cannot
be, their sessions are suspended (R442). -/
def State.orderTakeover (s : State) (insts : List (BitVec 16)) : State :=
  if insts.isEmpty || !s.isManager then s
  else
    let f := s.time.stroke
    if s.canOrder insts then
      let s := s.emit (.twin (.relay (.takeover ⟨insts, f, false⟩)))
      let s := ((s.modsOf insts).filter (· ≠ s.me)).foldl (fun s m => s.send m (.takeover ⟨insts, f, true⟩)) s
      s.takeoverHere ⟨insts, f, true⟩
    else s.suspendInsts (insts.filter s.instNums.contains) (if s.twinned && !s.twin.away.isEmpty then 6 else 5)

/-! ## The twin side (Table 16.8 steps 2 to 5) -/

/-- TAKEOVER (R434): on the failing side the instances' work stops and their sessions go; on the twin side the manager keeps it for its next close, and
it takes effect at the boundary of that close. -/
def execTakeover (t : TakeoverRec) (s : State) : Res :=
  .next (if !s.twinned then s
    else if t.fromSide then s.takeoverHere t
    else if s.twin.takeovers.any fun w => w.insts = t.insts && w.detected = t.detected then s
    else
      let k := if s.isManager then s.firstUnbuilt else s.time.stroke.toNat + 1
      s.modTwin fun w => { w with takeovers := w.takeovers ++ [⟨t.insts, t.detected, BitVec.ofNat 48 k, false, false⟩] })

/-- What the twin manager broadcasts during a close: the takeovers that take effect at the next boundary. -/
def State.broadcastTakeovers (s : State) : State :=
  if !s.isManager then s
  else (s.twin.takeovers.filter fun t => !t.failing && !t.entered && t.at_ = s.time.stroke + 1#48).foldl (fun s t =>
    s.broadcast (.takeover ⟨t.insts, t.detected, false⟩)) s

/-- A shadow session restored here from its committed proof and its history (R435), as a guest of its endpoint (R382). -/
def restoreShadow (s : State) (x : Session) : State :=
  match x.proofRec with
  | none => s
  | some r =>
    let num := 64 + x.ep.toNat % 64
    let y := { x with held2 := true, ep := BitVec.ofNat 8 num, order := s.sess.nextOrd, marks := [] }
    let es := x.history ++ x.ring.map (·.2)
    let s := ((s.adoptEndpoint num).addSession y).resumeSession y.key r es (s.shiftOf y.inst)
    let s := s.modSession y.key fun z => { z with sendNext := z.outNext }
    let s := if x.finished then s.closeSession y.key 2 0 else s
    match s.isManager, s.session y.key with
    | true, some z =>
      { s with ae := { s.ae with ledger := s.ae.ledger ++ [s.ledgerOf z (s.time.stroke.toNat + 1) [s.time.stroke + 1#48]], dirty := true,
                                 twinUsed := s.ae.twinUsed.filter fun e => e.key ≠ z.key } }
    | _, _ => s

/-- The charges of sessions of other twin modules that are taken over, at the manager: what it knows of them, shifted (R341). -/
def State.addTakenCharges (s : State) (insts : List (BitVec 16)) : State :=
  if !s.isManager then s
  else
    let k := s.time.stroke + 1#48
    let mine (e : LedgerEntry) : Bool := insts.contains e.inst
    let move (e : LedgerEntry) : LedgerEntry :=
      let x := BitVec.ofNat 48 (s.shiftOf e.inst)
      { e.flip with first := e.first + x, begin_ := e.begin_ + x, replays := [k] }
    { s with ae := { s.ae with ledger := s.ae.ledger ++ (s.ae.twinUsed.filter mine).map move, twinUsed := s.ae.twinUsed.filter fun e => !mine e } }

/-- Step 3 at the boundary S(k): landing data that is not committed goes, the module enters HOLDING, and every session is restored. A module whose
own state, or whose twin's, was not NORMAL puts them under exclusion 0x5 until they are restored (Table 13.9). -/
def enterTakeover (s : State) (t : TakeoverState) : State :=
  let mine := t.insts.filter fun i => s.instNums.contains i || s.isManager
  let here := t.insts.filter s.instNums.contains
  let s := s.modTwin fun w =>
    { w with landing := [], phase := if here.isEmpty then w.phase else .holding, holding := here.foldl addOnce w.holding,
             takeovers := w.takeovers.map fun u => if u = t then { u with insts := mine, entered := true } else u }
  let xs := s.sess.shadow.filter fun x => here.contains x.inst
  let s := { s with sess := { s.sess with shadow := s.sess.shadow.filter fun x => !here.contains x.inst } }
  let s := if s.twin.twinMod ≠ 0#2 then xs.foldl (fun s x => s.beginExcl 5 (some x.key)) s else s
  let s := (xs.foldl restoreShadow s).addTakenCharges mine
  let s := if s.isManager then s.modInfo s.me fun m => { m with takenOver := true } else s
  s.event (devNotice 0x16 0x40 0x33 0)

/-- Takeovers that take effect at this boundary; those of no instance here are forgotten. -/
def State.enterTakeovers (s : State) : State :=
  let due := s.twin.takeovers.filter fun t => !t.failing && !t.entered && t.at_.toNat ≤ s.time.stroke.toNat
  due.foldl (fun s t =>
    if (t.insts.any s.instNums.contains) || s.isManager then enterTakeover s t
    else s.modTwin fun w => { w with takeovers := w.takeovers.filter (· ≠ t) }) s

/-- TAKEOVER_COMPLETE (R434 step 5, R383): the work of stroke k + 1 is complete. The twin sends RESUME on every guest endpoint; the failing side may
catch up. -/
def execTakeoverComplete (insts : List (BitVec 16)) (s : State) : Res :=
  let mine (t : TakeoverState) : Bool := t.insts.all insts.contains && (t.failing || (t.entered && t.at_.toNat + 1 ≤ s.su.doneWork.toNat))
  .next (if !s.twin.takeovers.any mine then s
    else
      let took := s.twin.takeovers.any fun t => mine t && !t.failing
      let s := s.modTwin fun w => { w with takeovers := w.takeovers.filter fun t => !mine t }
      let s := if took then
          let s := (s.sess.list.filter fun x => insts.contains x.inst && x.held2).foldl (fun s x => s.endExcl 5 (some x.key)) s
          s.trans.eps.foldl (fun s e => if e.2.resume then s.sendResume e.1 else s) s
        else s
      s.pairSettle)

/-! ## Succession (R266, R440, R441) -/

/-- The directory of the new manager is its own copy (R266). -/
def State.copyAuth (s : State) : SMap (BitVec 32) :=
  (List.range s.dirBlocks).foldl (fun d b => let e := s.dirEntry b; if dirValid e then SMap.insert d b e else d) []

/-- The ledger from decision records that accepted, without those already in it. -/
def State.ledgerOfRecords (s : State) : List LedgerEntry :=
  s.ae.records.filterMap fun d =>
    match d.dec with
    | .accept g =>
      let inst := ((s.cclass d.req.terms.cclass).map (·.inst)).getD 0xFFFF#16
      some { handle := g.handle, port := d.req.port, terms := d.req.terms, inst := inst, admAt := g.admAt, first := g.first, chunk := g.chunk,
             pageLog2 := g.pageLog2, frames := g.frames,
             frameLen := s.frameBlocks inst d.req.terms g.pageLog2.toNat g.chunk.toNat, area := g.area, areaLen := g.areaLen, begin_ := g.admAt + 2#48, stop := none,
             replays := [], held := false, drained := [], released := false, ring := false }
    | .refuse _ => none

/-- The deputy's time as manager: FT goes on without a step, ALIGNED by definition (R41, R43), at a slew of the manager's 10 ppm at most, in HOLDOVER and
SUSPECT at its last frequency correction (R34, R35). -/
def TimeState.lead (t : TimeState) : TimeState :=
  let rate := if t.master = .holdover || t.master = .suspect then t.freqPpb else t.slewPpb
  { t with succAt := some t.mono, worker := .aligned, offSince := none, offAcked := false, slewPpb := max (-10000) (min 10000 rate) }

/-- What the deputy does at S(k): it is manager, tells every module, keeps switches broadcast and cancels every other migration, sends again every batch that it
has, since any may be unacknowledged, until each module acknowledges it (R251), rebuilds directory and ledger, and orders the takeover of the old manager module's instances. -/
def State.succeed (s : State) : State :=
  let old := s.ae.manager
  let n := s.time.stroke
  let s := s.event (devNotice 0x17 0x40 0x30 0)
  let isOpen : Bool := (s.boot.standing == Standing.serving) && !s.bindingOver
  let up : Bool := (s.twin.phase != PairPhase.unpaired)
  let s := { s with ae := { s.ae with manager := s.me, deputy := none, isOpen := isOpen, relayUp := up },
                    mem := { s.mem with auth := s.copyAuth, formed := true, nextSend := s.mem.nextBatch + BitVec.ofNat 32 s.mem.gotBatch.length },
                    time := s.time.lead }
  let s := s.broadcast (.succession n s.me)
  let s := s.mem.sentBatch.foldl (fun s b => s.broadcast (.batch b)) s
  let due : List (BitVec 32 × BitVec 10) := s.mem.sentBatch.flatMap fun (b : Batch) => s.others.map fun m => (b.seq, m)
  let s : State := { s with mem := { s.mem with unacked := due } }
  let cancels := (s.mem.migs.filter fun m => !m.switched).map fun m => DirUpdate.mk n 2#8 (BitVec.ofNat 32 m.block) m.newMod m.newFrame
  let s := s.sendBatch n (cancels.map .dir)
  let known := s.ledgerOfRecords
  let seen (x : Session) : Bool := known.any fun e => e.key = x.key
  let rest := (s.sess.list.filter fun x => !seen x && x.closing.isNone && x.valid.isNone).map fun x => s.ledgerOf x n.toNat []
  let s := { s with ae := { s.ae with ledger := known ++ rest } }
  let s := s.modules.foldl (fun s m => s.modInfo m fun i => { i with beatAt := s.time.mono, failed := m = old, loaded := true }) s
  (s.orderTakeover (s.instsOf old)).noteTime

/-- DEPUTY_SUCCESSION (R440): on a failure report of the manager module, its becoming LOST, or 8 ms without a time message, the deputy will succeed at
its next boundary. -/
def execDeputySuccession (c : SuccessionCause) (s : State) : Res :=
  .next (if !s.isDeputy || s.isManager || s.twin.succAt.isSome || !s.time.ftSet then s
    else
      let s := if c = .noTimeMessages then s.reachMono (s.time.lastTime.toNat + 8000000) else s
      s.modTwin fun t => { t with succAt := some (s.time.stroke + 1#48, s.me) })

/-- The succession that this boundary brings. -/
def State.enterSuccession (s : State) : State :=
  match s.twin.succAt with
  | some q => if q.1.toNat ≤ s.time.stroke.toNat then (s.modTwin fun t => { t with succAt := none }).succeed else s
  | none => s

/-- SUCCESSION (R441): the manager is another module from now on, and there is no deputy; an old manager enters LOST. The new manager knows it
already. A manager that has handed over its role to detach is a worker (R439). -/
def execSuccession (_k : Stroke) (by_ : BitVec 10) (s : State) : Res :=
  .next (if s.boot.plate.isNone || s.ae.manager = by_ then s
    else
      let old := s.isManager
      let s := { s with ae := { s.ae with manager := by_, deputy := none, isOpen := false }, time := { s.time with succAt := some s.time.mono } }
      if old then (if s.twin.detaching then s.modTime fun t => { t with worker := .aligned, awayRuns := 0 } else s.goLost) else s)

/-! ## Suspended sessions (R442) -/

/-- The newest committed proof of a session that this module stored at a layer, under the present keys. -/
def State.storedFor (s : State) (layer : Nat) (h : SessKey) : Option StoredProof :=
  (s.boot.proofs.filter fun p => p.layer = layer && p.epoch = s.epoch && p.parts.any fun q => q.key = h).getLast?

/-- Every sketch slab of a session set to GAP_LO = 0 and GAP_HI = PAGE_COUNT (R203): each is incomplete, and the SU will set RING_MODE, unless there
is no page (Table 8.5). -/
def State.gapSlabs (s : State) (x : Session) (pages : Nat) : State :=
  match s.geomOf x with
  | none => s
  | some g =>
    let a := s.areaOf x
    let s := (List.range (g.kv.layers * g.kv.heads)).foldl (fun s i =>
      s.sysWrite (a.sketch + i * g.kv.sketchBytes) (granuleBytes (slabHeaderGranule 0 pages 0))) s
    s.modSession x.key fun y =>
      { y with incomplete := if pages = 0 then [] else (List.range g.kv.layers).flatMap fun l => (List.range g.kv.heads).map fun h => 256 * l + h }

/-- The least shift after which an output falls due behind a stroke (R442). -/
def Session.shiftPast (x : Session) (j m : Nat) : Nat := m + 1 - x.due j

/-- The charges of a restored session move with its schedule, and are those of ring mode while a slab is incomplete (R213, R325, R341). -/
def State.ringCharges (s : State) (k : SessKey) (ring : Bool) : State :=
  match s.isManager, s.session k with
  | true, some x =>
    let move (e : LedgerEntry) : LedgerEntry :=
      { e with first := x.first, begin_ := e.begin_ + (x.first - e.first), replays := [s.time.stroke + 1#48], ring := ring }
    { s with ae := { s.ae with ledger := s.ae.ledger.map (fun e => if e.key = k then move e else e), dirty := true } }
  | _, _ => s

/-- A suspended session restored from a committed proof: its parts written at their addresses, every slab incomplete, the session at OUT_NEXT of the
record with its next output due after the restore stroke, under exclusion 0x9. -/
def State.restoreSuspended (s : State) (x : Session) (r : SessionRec) (bytes : List (GAddr × List Byte)) : State :=
  let s := bytes.foldl (fun s b => s.classWrite 3#2 b.1.toNat b.2) s
  let s := (s.endExcl 5 (some x.key)).endExcl 6 (some x.key)
  let known := (x.ring.map (·.2)).filter fun e => e.outIndex.toNat < r.outNext.toNat
  let s := s.modSession x.key fun y => { y with ring := [], held := [], sendNext := r.outNext.toNat, endAt := none }
  let s := s.resumeSession x.key r known (x.shiftPast r.outNext.toNat (s.time.stroke.toNat + 1))
  let s := s.modSession x.key fun y => { y with lastRow := s.time.stroke }
  let s := (s.gapSlabs x r.pageCount.toNat).ringCharges x.key (r.pageCount ≠ 0#32)
  if r.pageCount = 0#32 then s else s.beginExcl 9 (some x.key)

/-- SUSPENDED_RESTORE (R442): from layer 2 in this module's bulk flash or from layer 3, the record being that of the newest committed proof. -/
def execSuspendedRestore (port : BitVec 10) (slot : BitVec 15) (src : RestoreSource) (r : SessionRec) (s : State) : Res :=
  let layer := if src = .flash then 2 else 3
  .next (match s.sess.list.find? fun x => x.port = port && x.slot = slot.toNat && x.suspended.isSome && x.closing.isNone && x.handle = r.handle with
    | none => s
    | some x =>
      if !s.inService || (s.instModules x.inst).any fun m => (s.info m).failed then s
      else
        let p := s.storedFor layer x.key
        let q := p.bind fun p => (p.parts.find? fun q => q.key = x.key).map (·.record)
        let s := if src = .flash then s else s.modSession x.key fun y => { y with ep := 0xFF#8 }
        s.restoreSuspended x (q.getD r) ((p.map (·.bytes)).getD []))

/-- RESTORE_WAIT_EXPIRY (R442): no restore has begun within RESTORE_WAIT; the session closes with reason 0x5 and the code it is suspended under. -/
def execRestoreWaitExpiry (slot : BitVec 15) (s : State) : Res :=
  .next (match s.sess.list.find? fun x => x.port = s.me && x.slot = slot.toNat && x.suspended.isSome && x.closing.isNone with
    | none => s
    | some x =>
      match x.suspended with
      | none => s
      | some q =>
        let s := s.reachMono (q.1.toNat + ((s.proofRec.map fun p => p.restoreWait.toNat).getD 600) * 1000000000)
        (s.closeSession x.key 5 q.2.toNat).endExcl q.2.toNat (some x.key))

/-! ## Detaching (R439, R554) -/

/-- A detach is refused, with its alarm and flag. -/
def State.refuseDetach (s : State) : State := { s with pwr := { s.pwr with refused := true } }.alarm (devNotice 0x0D 0x40 0x30 0)

/-- A manager hands its role to the deputy: the modules hear SUCCESSION (R439, R440). -/
def State.handRole (s : State) : State :=
  match s.isManager, s.deputyToAsk with
  | true, some d =>
    let k := s.time.stroke + 1#48
    let s := s.broadcast (.succession k d)
    ({ s with ae := { s.ae with manager := d, deputy := none, isOpen := false } }).modTime fun t => { t with worker := .aligned, awayRuns := 0 }
  | _, _ => s

/-- Frames of this module that hold unpinned blocks of instances that do not run on it and are still served on its side. -/
def State.foreignFrames (s : State) : List (BitVec 20) :=
  ((List.range s.dirBlocks).filter fun b =>
    let e := s.dirEntry b
    dirValid e && !dirPinned e && dirModule e = s.me && (s.placeOf b).any fun p => !s.instNums.contains p.1.inst && !s.twin.away.contains p.1.inst).map fun b =>
      BitVec.ofNat 20 (dirFrame (s.dirEntry b))

/-- Every instance of this module handed over, two strokes ahead. -/
def State.handOverAll (s : State) : State :=
  let h := s.time.stroke + 2#48
  s.instNums.foldl (fun s i =>
    let s := s.modTwin fun t => { t with handovers := t.handovers ++ [⟨i, h, true⟩] }
    let s := s.emit (.twin (.handover ⟨i, true⟩ h))
    (((s.ae.manager :: s.instModules i).eraseDups).filter (· ≠ s.me)).foldl (fun s m => s.send m (.handover ⟨i, false⟩ h)) s) s

/-- A detach (R439): refused unless the pair is PAIRED, no handover runs, and a manager has a deputy to hand its role to; otherwise role, instances and
the blocks of other instances leave the module. -/
def State.detach (s : State) : State :=
    if s.boot.standing ≠ .serving || s.twin.detaching then s
    else if !s.twinned || s.twin.phase ≠ .paired || !s.twin.handovers.isEmpty || (s.isManager && s.deputyToAsk.isNone) then s.refuseDetach
    else
      let s := (s.modTwin fun t => { t with detaching := true }).handRole
      let s := s.handOverAll
      if s.foreignFrames.isEmpty then s else s.tell (.leaving s.foreignFrames)

/-- DETACH (R439). -/
def execDetach (s : State) : Res := .next s.detach

/-- At a boundary a detaching module whose instances and blocks have gone drops its fabric ports and is detached (R439 step 4). -/
def State.finishDetach (s : State) : State :=
  if s.twin.detaching && s.boot.standing = .serving && !(s.twin.handovers.any (·.giving)) && s.foreignFrames.isEmpty then
    { s.closePorts with boot := { s.boot with standing := .detached, code := 0x0B#8 } }
  else s

end Sys2Proof.Machine
end

