-- ==== Sys2Proof/Machine/Jobs.lean ====
section
/-! DEFINITION. Jobs.lean: the tuning job: release and completion of steps, the header and group slots, job proofs, stop and resumption (spec/17 R443
to R460). -/
namespace Sys2Proof.Machine

/-! ## The job -/

/-- Does this module run the job: side A, a module of its instance (R446)? -/
def State.runsJob (s : State) : Bool := !s.side && s.jobInst.any fun i => s.instNums.contains i

/-- Does this module lead the job's instance? -/
def State.leadsJob (s : State) : Bool := s.jobInst.any fun i => s.ledInsts.contains i

/-! ## Schedule and slots (R450, Tables 17.5, 17.6) -/

/-- An integer as FP32 (R143). -/
def fp32OfNat (n : Nat) : Word32 := (fl32 (.fin false n 0)).val

/-- η(t) from the schedule points in order (R450). -/
def rateAt (t : Nat) : List SchedPoint → Word32
  | [] => 0#32
  | [p] => p.lr
  | p :: q :: rest =>
    if t < q.step.toNat then
      let f := (fDiv (fp32OfNat (t - p.step.toNat)) (fp32OfNat (q.step.toNat - p.step.toNat))).val
      (fAdd p.lr (fMul (fSub q.lr p.lr).val f).val).val
    else rateAt t (q :: rest)

/-- 1 − FEXP2(FP32(t) × LOG2_B): the bias correction of a step. -/
def biasAt (t : Nat) (logB : Word32) : Word32 := (fSub 0x3F800000#32 (fExp2 (fMul (fp32OfNat t) logB).val).val).val

/-- The group slot of a step (Table 17.6). -/
def GroupRec.slot (g : GroupRec) (t : Nat) : List Byte :=
  let l1 := (fLog2 g.beta1).val
  let l2 := (fLog2 g.beta2).val
  recBytes 64 [(l2.toNat, 256), (l1.toNat, 224), ((biasAt t l2).toNat, 192), ((biasAt t l1).toNat, 160), (g.decay.toNat, 128), (g.eps.toNat, 96),
    (g.beta2.toNat, 64), (g.beta1.toNat, 32), ((rateAt t g.points).toNat, 0)]

/-- The job header of a step released in a stroke (Table 17.5). -/
def Tuning.header (j : Tuning) (t : Nat) (stroke : Stroke) : List Byte :=
  let final := if t = j.stepsMax.toNat then 1 else 0
  let root := if (t - 1) % j.rootEvery.toNat = 0 then 1 else 0
  recBytes 128 [(stroke.toNat, 128), (t, 64), (final, 1), (root, 0)]

/-! ## Release (R447, R448) -/

/-- The header and the group slots written by the lead module's SU. -/
def State.writeJobHeader (s : State) (j : Tuning) (t : Nat) : State :=
  let s := s.sysWrite j.jobBase.toNat (j.header t s.time.stroke)
  j.groups.zipIdx.foldl (fun s g => s.sysWrite (j.jobBase.toNat + 128 + 64 * g.2) (g.1.slot t)) s

/-- A PROGRAM 2 stream of an owner begins at its first command. -/
def State.beginJobStream (s : State) (inst : BitVec 16) (p : Nat) (o : Owner) : State :=
  if (s.stream p o inst 2#2).isSome then
    s.modPart p fun x => x.modOwner o fun w => { w with job := { StreamPos.reset with inst := inst, prog := 2#2, headAt := some s.ftOr0 }, grant := false }
  else s

/-- Step t released: header and slots at the lead, job semaphores zero, every PROGRAM 2 stream at its first command. -/
def State.releaseStep (s : State) (j : Tuning) (t : Nat) : State :=
  let s := if s.leadsJob then s.writeJobHeader j t else s
  let s := s.mapParts fun x => { x with sems := x.sems.filter fun m => !isJobSem m.1 }
  let s := (List.range s.label.variant.parts).foldl (fun s p => allOwners.foldl (fun s o => s.beginJobStream j.inst p o) s) s
  ({ s with job := { s.job with phase := .running, step := t, released := s.time.stroke } }).level (modCtr 0x0070 0) t

/-- May step t + 1 be released: no job proof of an earlier step is uncommitted (R457)? -/
def State.mayRelease (s : State) : Bool := s.job.open_.all fun k => k.2 = s.job.step

/-- JOB_STEP_RELEASE (R447): step 1 once admission has opened, each further step once its predecessor is complete and R457 allows it; a release that must
wait is counted. -/
def execJobStepRelease (s : State) : Res :=
  .next (match s.tuning with
    | none => s
    | some j =>
      if !s.runsJob || s.boot.standing ≠ .serving || !s.inService then s
      else match s.job.phase with
        | .off => s.releaseStep j 1
        | .between => if s.mayRelease then s.releaseStep j (s.job.step + 1) else s.count (modCtr 0x0071 0)
        | _ => s)

/-! ## Completion and proofs (R447, R456, R457) -/

/-- Have all PROGRAM 2 streams of this module executed END, and their commands completed? -/
def State.jobStepDone (s : State) (inst : BitVec 16) : Bool :=
  (List.range s.label.variant.parts).all fun p =>
    (allOwners.all fun o => (s.stream p o inst 2#2).isNone || ((s.part p).owner o).job.headAt.isNone) && (s.part p).allCmds.all fun c => c.hdr.cls ≠ 5#4

/-- EVERY of a layer. -/
def Tuning.every (j : Tuning) (layer : Nat) : Nat :=
  match layer with
  | 1 => j.every1.toNat
  | 2 => j.every2.toNat
  | _ => j.every3.toNat

/-- Is a job proof of a layer due at the completion of step t? -/
def Tuning.due (j : Tuning) (layer t : Nat) : Bool := j.every layer ≠ 0 && (t % j.every layer = 0 || t = j.stepsMax.toNat)

/-- The layer-1 proof of step t: the module's job state to the twin's landing area, then the lead's COMMIT; skipped and counted while the pair is not
PAIRED. -/
def State.proveJob1 (s : State) (t : Nat) : State :=
  if s.twin.phase ≠ .paired then s.count (modCtr 0x0072 0)
  else
    let gs := s.jobGranules
    let point := BitVec.ofNat 48 t
    let s := gs.foldl (fun s g => s.emit (.twin (.data point 0xFFFF#16 (granuleAddr g) [granuleOf (s.captured (granuleAddr g))]))) s
    let s := s.modCapture 1 0xFFFF#16 point fun k => { k with closed := true }
    let c : CommitRec := ⟨point, 0xFFFF#16, BitVec.ofNat 32 gs.length⟩
    let s := if s.leadsJob then
        (s.modTwin fun w => { w with commits := w.commits ++ [⟨point, 0xFFFF#16, c.count⟩] }).emit (.twin (.commit c))
      else s
    { s with job := { s.job with open_ := s.job.open_ ++ [(1, t)] } }

/-- The capture of a proof of layer 2 or 3: its granules are protected and left to the proof writer (R427, R456). -/
def State.proveJob (s : State) (layer t : Nat) : State :=
  let gs := s.jobGranules
  let s := s.modCapture layer 0xFFFF#16 (BitVec.ofNat 48 t) fun k => { k with left := gs.map granuleAddr, closed := true }
  { s with mem := { s.mem with protect := gs.foldl setInsert s.mem.protect }, job := { s.job with open_ := s.job.open_ ++ [(layer, t)] } }

/-- JOB_STEP_COMPLETE (R447, R456): the due job proofs are taken, and after STEPS_MAX the job is done. -/
def execJobStepComplete (s : State) : Res :=
  .next (match s.tuning with
    | none => s
    | some j =>
      let t := s.job.step
      if s.job.phase ≠ .running || !s.jobStepDone j.inst then s
      else
        let s := if j.due 1 t then s.proveJob1 t else s
        let s := if j.due 2 t then s.proveJob 2 t else s
        let s := if j.due 3 t then s.proveJob 3 t else s
        { s with job := { s.job with phase := if t = j.stepsMax.toNat then .done else .between } })

/-- The two newest of a layer's committed steps, and those of the others. -/
def keepTwo (l : List (Nat × Nat)) (layer t : Nat) : List (Nat × Nat) :=
  l.filter (fun k => k.1 ≠ layer) ++ ((layer, t) :: (l.filter fun k => k.1 = layer)).take 2

/-- JOB_PROOF_COMMIT (R456): the proof of a step is committed at its layer on every module; it no longer holds back a release. -/
def execJobProofCommit (layer : BitVec 2) (step : BitVec 32) (s : State) : Res :=
  let k : Nat × Nat := (layer.toNat, step.toNat)
  .next (if s.job.open_.contains k then
      { s with job := { s.job with open_ := s.job.open_.filter (· ≠ k), committed := keepTwo s.job.committed k.1 k.2 } }
    else s)

/-- JOB_STOP (R458), by any of its causes. -/
def execJobStop (_c : JobStopCause) (s : State) : Res := .next s.haltJob

/-! ## Resumption (R459) -/

/-- The committed proof with the greatest step, of equal steps that of the lowest layer. -/
def bestProof : List (Nat × Nat) → Option (Nat × Nat)
  | [] => none
  | k :: r =>
    match bestProof r with
    | none => some k
    | some b => if k.2 > b.2 || (k.2 = b.2 && k.1 < b.1) then some k else some b

/-- A granule laid under the part of a byte string that covers it. -/
def layOver (a : Nat) (old : List Byte) (src : Nat × List Byte) : List Byte :=
  old.zipIdx.map fun x => if src.1 ≤ a + x.2 then (src.2[a + x.2 - src.1]?).getD x.1 else x.1

/-- Objects and DATA records of the plate with the addresses they stand at. -/
def State.plateSources (s : State) : List (Nat × List Byte) :=
  match s.boot.plate with
  | none => []
  | some p =>
    (p.objects.map fun o => (o.blockBase.toNat * blockBytes, (s.goodObject o).getD [])) ++ p.data.map fun d => (d.dest.toNat, d.bytes)

/-- Job state of this module as the plate gives it, zero where nothing covers it. -/
def State.jobFromPlate (s : State) : State :=
  let src := s.plateSources
  s.jobGranules.foldl (fun s g =>
    let a := (granuleAddr g).toNat
    s.classWrite 3#2 a (src.foldl (layOver a) (List.replicate 128 0#8))) s

/-- Job state of this module from a committed proof of layer 2 or 3. -/
def State.jobFromProof (s : State) (k : Nat × Nat) : State :=
  match s.boot.proofs.find? fun p => p.layer = k.1 && p.inst = 0xFFFF#16 && p.point.toNat = k.2 && p.epoch = s.epoch with
  | some p => p.bytes.foldl (fun s b => s.classWrite 3#2 b.1.toNat b.2) s
  | none => s

/-- The job goes on behind a step whose state stands in memory again; behind the last step it is done. -/
def State.resumeAfter (s : State) (j : Tuning) (k : Nat) : State :=
  let s := { s with job := { s.job with fetch := none } }
  if k = j.stepsMax.toNat then { s with job := { s.job with phase := .done, step := k } } else s.releaseStep j (k + 1)

/-- JOB_RESUME (R459): a waiting job goes on from its best committed proof once this module is in service and holds the instance itself. A layer-1 proof
is asked of the twin, and the job goes on once all of it has come back. -/
def execJobResume (s : State) : Res :=
  .next (match s.tuning with
    | none => s
    | some j =>
      if s.job.phase ≠ .waiting || !s.runsJob || !s.inService || s.twin.holding.contains j.inst || s.twin.away.contains j.inst then s
      else match bestProof s.job.committed with
        | none => s.jobFromPlate.releaseStep j 1
        | some k =>
          if k.1 ≠ 1 then (s.jobFromProof k).resumeAfter j k.2
          else if s.job.fetch = some (k.2, true) then s.resumeAfter j k.2
          else if s.twin.phase = .unpaired || s.job.fetch = some (k.2, false) then s
          else { s.emit (.twin (.relay (.jobAsk (BitVec.ofNat 48 k.2)))) with job := { s.job with fetch := some (k.2, false) } })

end Sys2Proof.Machine
end

