-- ==== Sys2Proof/Machine/Faults.lean ====
section
/-! DEFINITION. Faults.lean: heartbeats and beats, engine, partition and device resets, self-tests and tenant teardown (spec/18). -/
namespace Sys2Proof.Machine

/-! ## Device reset (R474 to R476) -/

/-- The MC's failure report (R466, R470): to the manager, or of the manager module to the deputy (R440). -/
def State.reportFailure (s : State) (p : Option Nat) : State :=
  if s.boot.plate.isNone then s
  else if s.isManager then
    match s.ae.deputy with
    | some d => s.send d (.failure p)
    | none => s
  else s.send s.ae.manager (.failure p)

/-- A device reset: the failure report, every port dropped, and a start under R415; without main power there is nothing to start. -/
def State.resetDevice (s : State) : State :=
  if s.boot.standing = .auxOnly then s else ((s.reportFailure none).closePorts).beginStart

/-- DEVICE_RESET (R464, R474). A subchannel that has stopped responding is recorded as lost (R241). -/
def execDeviceReset (c : ResetCause) (s : State) : Res :=
  .next (match c with
    | .lostSubchannel g => (if s.mem.lost.contains g.toNat || s.boot.standing = .auxOnly then s else s.loseSub g.toNat).resetDevice
    | _ => s.resetDevice)

/-- A lost subchannel leads to a device reset (R241). One that a read has found lost meets it with the next lane check, within 1 ms. -/
def State.settleLost (s : State) : State := if s.mem.lost.isEmpty then s else s.resetDevice

/-- LANE_CHECK (R221): of four pattern reads, every 1 ms. -/
def execLaneCheck (g : BitVec 10) (reads : List (BitVec 12)) (s : State) : Res :=
  inSub s g.toNat (s.laneCheck g.toNat reads).settleLost

/-- EVACUATION_GRANULE_ACK (R239, step 3). -/
def execEvacuationGranuleAck (part : BitVec 4) (s : State) : Res :=
  let p := part.toNat
  inPart s p
    (match (s.part p).evacuation with
    | some m => if m.ready && (s.part p).reset.isNone then (s.evacuateNext p m).settleLost else s
    | none => s)

/-- PATROL_SCRUB (R245). -/
def execPatrolScrub (frame : BitVec 20) (granule : BitVec 14) (noise : ReadNoise) (s : State) : Res :=
  .next (s.scrub frame.toNat granule.toNat noise).settleLost

/-! ## Heartbeats (R169, R462, R541, R542) -/

/-- HEARTBEAT: the MC hears the CC of a partition. -/
def execHeartbeat (part : BitVec 4) (s : State) : Res :=
  inPart s part.toNat (s.modPart part.toNat fun x => { x with beatAt := s.time.mono })

/-- A hang snapshot leaves the tracing port, 8 KiB a frame, ahead of every trace record; without a link none leaves. -/
def State.sendHang (s : State) (bytes : List Byte) : State :=
  match s.traceEntry with
  | some t => if s.obs.linkUp then (chunksOf 8192 (bytes.length / 8192 + 1) bytes).foldl (fun s b => s.sendFrame t 2 [] b) s else s
  | none => s

/-- HEARTBEAT_LOSS (R462): 8 ms after the last heartbeat of a CC the MC captures a hang snapshot, raises HANG and resets the device. A partition in
reset sends no heartbeats that are missed. -/
def execHeartbeatLoss (part : BitVec 4) (s : State) : Res :=
  let p := part.toNat
  inPart s p (if (s.part p).reset.isSome || s.boot.standing = .auxOnly then s
    else
      let s := s.reachMono ((s.part p).beatAt.toNat + 8000000)
      let shot := s.snapshot 1 p
      ((s.alarm (devNotice 0x0C p 0x20 p)).sendHang shot).resetDevice)

/-! ## Module beats and failed modules (R463) -/

/-- One instance with blocks on a module that detaches: they are to migrate where as many frames are free elsewhere, and else the instance is handed over
(R439 step 3). -/
def leaveInst (m : BitVec 10) (blocks : List (Nat × BitVec 16)) (a : State × Nat) (i : BitVec 16) : State × Nat :=
  let bs := (blocks.filter fun b => b.2 = i).map (·.1)
  if bs.length ≤ a.2 || i = 0xFFFF#16 then
    ({ a.1 with mem := { a.1.mem with wanted := bs.foldl setInsert a.1.mem.wanted } }, a.2 - bs.length)
  else
    let h := a.1.time.stroke + 2#48
    ((a.1.handover ⟨i, false⟩ h).send m (.handover ⟨i, false⟩ h), a.2)

/-- The manager's part of a detach: the blocks that a module has to leave, instance by instance (R439 step 3). -/
def State.leaveFrames (s : State) (m : BitVec 10) (fs : List (BitVec 20)) : State :=
  let hit (e : BitVec 32) : Bool := dirValid e && dirModule e = m && fs.any fun f => f.toNat = dirFrame e
  let blocks := (s.mem.auth.filter fun e => hit e.2).filterMap fun e => (s.placeOf e.1).map fun p => (e.1, p.1.inst)
  let free := (s.freeFrames.filter fun f => f.1 ≠ m).length
  (((blocks.map (·.2)).eraseDups).foldl (leaveInst m blocks) (s, free)).1

/-- A report whose manager acts on it (R58, R225, R229, R239, R318): its record of the module, recomputed; blocks of vacated frames to migrate. -/
def State.heedInfo (s : State) (m : BitVec 10) (r : ModReport) : State :=
  let s := s.modInfo m fun i => i.heed r
  let s := { s with ae := { s.ae with dirty := true } }
  match r with
  | .vacated fs =>
    let hit (e : BitVec 32) : Bool := dirValid e && dirModule e = m && fs.any fun f => f.toNat = dirFrame e
    { s with mem := { s.mem with wanted := ((s.mem.auth.filter fun e => hit e.2).map (·.1)).foldl setInsert s.mem.wanted } }
  | .leaving fs => s.leaveFrames m fs
  | .migrationLost b => s.modMig b.toNat fun g => { g with doomed := true }
  | _ => s

/-- A session that its port module has closed ends here too (R345, R480); of one closed at its prompt's deadline no row was ever built, and its charges go
from the stroke whose table that close builds (R330). -/
def State.heedClosed (s : State) (k : SessKey) (unused : Bool) : State :=
  let s := if unused then
      { s with ae := { s.ae with ledger := s.ae.ledger.map fun e =>
        if e.key = k && e.stop.isNone then { e with stop := some (s.time.stroke + 1#48) } else e } }
    else s
  let s := if s.isManager then s.stopCharges k else s
  s.closeSession k (if unused then 3 else 1) 0

/-- The end of an instance's validation at its lead: the manager notes an instance passed, and a module of one that has failed stops with code 0x8E (R410,
R411). -/
def State.heedValidated (s : State) (i : BitVec 16) (ok : Bool) : State :=
  if ok then (if s.isManager && !s.boot.passed.contains i then { s with boot := { s.boot with passed := s.boot.passed ++ [i] } } else s)
  else if s.boot.standing = .starting && s.instNums.contains i then s.hold 0x8E else s

/-- What another module reports (notes/assumptions/32): to the manager, of a session or a failed validation to every module of its instance, of a proof to
the instance's lead, and of a reset to the old home of a migration (R265). -/
def State.heed (m : BitVec 10) (s : State) (r : ModReport) : State :=
  match r with
  | .closed port handle unused => s.heedClosed ⟨port, handle⟩ unused
  | .proofDone n i layer =>
    if layer = 1 then (s.modTwin fun t => { t with proofDone := t.proofDone.filter (· ≠ (m, n, i)) ++ [(m, n, i)] }).tryCommit n i else s
  | .transferAgain b => s.resume b.toNat
  | .validated i ok => s.heedValidated i ok
  | r => if s.isManager then s.heedInfo m r else s

/-- MODULE_BEAT: this module's beat goes to the manager; at the manager a module's beat is noted, with what the module has reported since (R463;
notes/assumptions/32). -/
def execModuleBeat (b : BeatReport) (s : State) : Res :=
  .next (if s.boot.plate.isNone then s
    else
      let s := if s.isManager then s.modInfo b.module fun m => { m with beatAt := s.time.mono }
        else if b.module = s.me then s.send s.ae.manager .beat
        else s
      if b.module = s.me then s else b.heard.foldl (State.heed b.module) s)

/-- The instances with work on a partition of a module: those with a stream there. -/
def State.workOn (s : State) (m : BitVec 10) (p : Nat) : List (BitVec 16) :=
  (s.instsOf m).filter fun i =>
    (s.boot.plate.map (·.programs)).any fun rs => rs.any fun r => r.inst = i && r.module = m && r.part.toNat = p

/-- The instances that a failure concerns: those with work on the partition reported, else all of the module's (R463, R470). -/
def State.concerned (s : State) (m : BitVec 10) (c : FailCause) : List (BitVec 16) :=
  match c with
  | .failureReport (some p) => s.workOn m p.toNat
  | _ => s.instsOf m

/-- Does a cause leave the module out of the domain, and not a partition alone? -/
def wholeModule (c : FailCause) : Bool :=
  match c with
  | .failureReport (some _) => false
  | _ => true

/-- A declaration at the manager: its alarm, the module's migrations cancelled, and the takeover of the instances concerned (R265, R433, R463). -/
def State.declareFailed (s : State) (m : BitVec 10) (c : FailCause) : State :=
  let s := s.alarm (devNotice 0x0E 0x40 0x30 m.toNat)
  let s := if wholeModule c then (s.modInfo m fun i => { i with failed := true }).doomModule m else s
  let s := { s with ae := { s.ae with declared := setInsert s.ae.declared m.toNat, dirty := true } }
  s.orderTakeover (s.concerned m c)

/-- MODULE_FAILED (R463). At the manager: 8 missed beats, a failure report, LOST, or every port down. Elsewhere: the declaration broadcast in a close;
without a twin the sessions of the instances concerned are suspended (R442). -/
def execModuleFailed (module : BitVec 10) (c : FailCause) (s : State) : Res :=
  .next (if s.boot.plate.isNone || ((s.info module).failed && s.isManager) then s
    else if s.isManager then
      (if c = .missedBeats then s.reachMono ((s.info module).beatAt.toNat + 8000000) else s).declareFailed module c
    else
      let s := { s with ae := { s.ae with declared := setInsert s.ae.declared module.toNat } }
      if s.twinned then s else s.suspendInsts ((s.concerned module c).filter s.instNums.contains) 5)

/-- What the manager broadcasts during a close: the modules declared failed (R463). -/
def State.broadcastDeclared (s : State) : State :=
  if s.isManager then s.ae.declared.foldl (fun s m => s.broadcast (.declaredFailed (BitVec.ofNat 10 m))) s else s

/-- At the boundary where a declaration takes effect, requests of the module that wait here are discarded (R463). -/
def State.discardDeclared (s : State) : State :=
  let gone (w : Waiting) : Bool := s.ae.declared.contains w.pkt.src.toNat && w.pkt.src ≠ s.me
  let ws := s.mem.waits.filter gone
  let s := { s with mem := { s.mem with waits := s.mem.waits.filter fun w => !gone w }, ae := { s.ae with declared := [] } }
  ((ws.filter (·.inBuf)).foldl (fun s w => s.leaveBuffer w.inb) s).retryWaits fun _ => false

/-! ## Engine reset (R461, R465, Table 18.2) -/

/-- The engine codes that one engine reset acts on: any array of a cluster means all four (R120). -/
def resetCodes (engine : Nat) : List Nat :=
  match unitOf engine with
  | .array k _ => (List.range 4).map (arrayCode k)
  | .none => []
  | _ => [engine]

/-- One command ended by a reset: a running one closes its counters with STATE 2; each leaves its trace record with outcome 2 (R544). -/
def endCommand (p engine : Nat) (s : State) (c : RunCmd) : State := if c.startAt.isSome then s.closeCmd p engine c 2 2 else s.traceCmd p engine c 2

/-- Every command of an engine ended, with the fills and releases that belong to them (R79, R274, R287). -/
def State.endCommands (s : State) (p engine : Nat) : State :=
  let cs := (s.part p).unitCmds (unitOf engine)
  let mine (n : Nat) : Bool := cs.any fun c => c.serial = n
  let s := cs.foldl (endCommand p engine) s
  s.modPart p fun x =>
    { (x.mapCmds (unitOf engine) fun _ => []) with
      releases := x.releases.filter fun r => r.engine ≠ engine,
      de := { (x.mapCmds (unitOf engine) fun _ => []).de with sendq := x.de.sendq.filter (fun r => !mine r.serial), inflight := x.de.inflight.filter fun r => !mine r.serial } }

/-- The state that a reset leaves of the DE: transactions ended, expansion queue and codebook cache emptied, both generations advanced. -/
def DeState.resetTo (d : DeState) (now : Word64) : DeState :=
  { d with running := [], sendq := [], inflight := [], books := [], bookFetch := [], expq := [], gen := d.gen + 1#16, fgen := d.fgen + 1#12,
           fgenAt := some now }

/-- The state that a reset leaves of a stream owner: at the start of its next work stroke, no loop (Table 18.2). -/
def OwnerState.resetTo (o : OwnerState) : OwnerState := { o with serve := .reset, parked := false, grant := false, gen := o.gen + 1#16 }

/-- Serial numbers of the commands of a partition's VEs, whose fills a die-cache reset discards. -/
def Part.veSerials (x : Part) : List Nat := (List.range 4).flatMap fun k => (x.unitCmds (.ve k)).map (·.serial)

/-- One unit in the state of Table 18.2, its generation advanced (R81, R120, R164). -/
def Part.resetUnit (x : Part) (now : Word64) (engine : Nat) : Part :=
  match unitOf engine with
  | .array k a => x.modCluster k fun c => c.modArray a fun m => { MArray.reset with gen := m.gen + 1#16 }
  | .ve k => x.modCluster k fun c => { c with ve := { Ve.reset with gen := c.ve.gen + 1#16 } }
  | .csq k => x.modCluster k fun c => { c with csq := c.csq.resetTo }
  | .cc => { x with cc := x.cc.resetTo }
  | .de => { x with de := x.de.resetTo now }
  | .dcache =>
    let f := x.veSerials
    { x with dcache := { DieCache.reset with gen := x.dcache.gen + 1#16 },
             de := { x.de with sendq := x.de.sendq.filter (fun r => !f.contains r.serial), inflight := x.de.inflight.filter fun r => !f.contains r.serial } }
  | .none => x

/-- Instances with commands at reset engines in the work stroke: those that issued to them, and the one whose stream the owner runs (R466). -/
def Part.failing (x : Part) (codes : List Nat) : List (BitVec 16) :=
  let owner (o : Owner) : List (BitVec 16) :=
    let w := x.owner o
    if codes.contains (ownerCode o) && w.serve.headAt.isSome && !w.ended.contains w.serve.inst then [w.serve.inst] else []
  (((x.issued.filter fun e => codes.contains e.1).map (·.2)) ++ allOwners.flatMap owner).eraseDups

/-- Is a self-test run on this engine (R477)? -/
def testable (engine : Nat) : Bool :=
  match unitOf engine with
  | .array _ _ | .ve _ | .csq _ => true
  | _ => false

/-- A DE's fabric generation advances at most once in 2.5 µs: a sooner reset waits (R308). -/
def State.awaitFgen (s : State) (p : Nat) : State :=
  match (s.part p).de.fgenAt with
  | some t => s.reach (t.toNat + 2500)
  | none => s

/-- An engine reset completes: its commands end, its state is that of Table 18.2, a self-test of it is due, and unless a self-test began it every
instance that used it has failed the stroke; the job stops (R458, R461, R465, R466, R477). -/
def State.completeReset (s : State) (p engine : Nat) (selfTest : Bool) : State :=
  let codes := resetCodes engine
  let failing := (s.part p).failing codes
  let s := if unitOf engine = .de then s.awaitFgen p else s
  let s := codes.foldl (fun s e => s.endCommands p e) s
  let s := s.modPart p fun x =>
    { (codes.foldl (fun x e => x.resetUnit s.ftOr0 e) x) with
      engResets := x.engResets.filter (fun e => !codes.contains e.engine), pendTests := (codes.filter testable).foldl setInsert x.pendTests }
  let s := s.event (devNotice 0x10 p engine engine)
  let s := if selfTest then s else (failing.foldl State.failStroke s).haltJobOf s.instNums
  (s.flushReleases p).runOn p

/-- ENGINE_RESET (R461): the CC resets an engine; a partition in reset performs none. -/
def execEngineReset (part : BitVec 4) (engine : BitVec 8) (s : State) : Res :=
  let p := part.toNat
  let e := engine.toNat
  inPart s p (if (s.part p).reset.isSome || (resetCodes e).isEmpty then s
    else s.completeReset p e (((s.part p).engResets.find? fun r => (resetCodes e).contains r.engine).any (·.selfTest)))

/-! ## A failed stroke (R466) -/

/-- STROKE_FAILED: reported by this module's CC, the SU tells the instance's other modules; told by another module, the instance has failed the
stroke here. A manager that does not run the instance keeps it for the shift of its charges (R341). -/
def execStrokeFailed (inst : BitVec 16) (stroke : Stroke) (own : Bool) (s : State) : Res :=
  let kept := s.su.restore.contains (inst, stroke)
  .next (if !s.instNums.contains inst then
      (if s.isManager && !kept then { s with su := { s.su with restore := s.su.restore ++ [(inst, stroke)] } } else s)
    else if own then (if stroke = s.su.work then s.failStroke inst else s)
    else s.failHere inst stroke)

/-! ## Partition reset (R468 to R473, Table 18.3) -/

/-- The partition as it stands from the start of its reset: every engine in the state of Table 18.2, every generation advanced; semaphores,
early signals and scratchpad are cleared before it returns. Counters, trace queue and map-outs belong to the module and stay. -/
def Part.stop (x : Part) (now ft : Word64) : Part :=
  let y := (engineCodes ++ allOwners.map ownerCode).foldl (fun x e => x.resetUnit ft e) x
  { y with sp := [], bad := [], sems := [], early := [], releases := [], engResets := [], testFails := [], pendTests := [], issued := [],
           reset := some ⟨now, none⟩,
           cc := { y.cc with job := .reset, ended := [], stopped := [] },
           clusters := y.clusters.map fun c => { c with csq := { c.csq with job := .reset, ended := [], stopped := [] } } }

/-- A partition reset begins: its commands end, the failure report leads to the takeover of every instance with work on it, and without a twin
their sessions are suspended; `fails` is false where a self-test began it (R466, R470). -/
def State.resetPart (s : State) (p : Nat) (fails : Bool) : State :=
  if (s.part p).reset.isSome then s
  else
    let insts := s.workOn s.me p
    let codes := engineCodes ++ allOwners.map ownerCode
    let failing := (s.part p).failing codes
    let s := s.awaitFgen p
    let s := engineCodes.foldl (fun s e => s.endCommands p e) s
    let s := s.modPart p fun x => x.stop s.time.mono s.ftOr0
    let s := { s with mem := { s.mem with sigWait := s.mem.sigWait.filter fun w => w.1 ≠ p } }
    let s := if fails then failing.foldl State.failStroke s else s
    let s := (s.reportFailure (some p)).haltJobOf s.instNums
    if s.isManager then s.declareFailed s.me (.failureReport (some (BitVec.ofNat 4 p)))
    else if s.twinned then s
    else s.suspendInsts insts 5

/-- PARTITION_RESET (R464, R468). -/
def execPartitionReset (part : BitVec 4) (s : State) : Res :=
  inPart s part.toNat (if s.boot.step < 4 then s else s.resetPart part.toNat true)

/-- ENGINE_RESET_BOUND (R464): 1,000 µs from its trigger an engine reset is not complete, and a partition reset takes its place. -/
def execEngineResetBound (part : BitVec 4) (engine : BitVec 8) (s : State) : Res :=
  let p := part.toNat
  inPart s p (match (s.part p).engResets.find? fun r => r.engine = engine.toNat with
    | some r => (s.reach (r.since.toNat + 1000000)).resetPart p (!r.selfTest)
    | none => s)

/-- The blocks homed here with a granule on a partition's subchannels. -/
def State.blocksOn (s : State) (p : Nat) : List Nat :=
  (List.range s.dirBlocks).filter fun b => match s.homeOf b with
    | some h => h.1 = s.me && s.frameOn h.2 p
    | none => false

/-- The contents of the granules on a partition's subchannels lost and written with zeros; the directory copy, whose source is the manager's
directory, ends as it was (R468, R472; notes/assumptions/55). -/
def State.losePart (s : State) (p : Nat) : State :=
  let dir := s.ownDir
  let isDir (frame : Nat) : Bool := dir.any fun e => (List.range e.blockCount.toNat).any fun i => (e.homeOf i) = (s.me.toNat, frame)
  let lost (a : Nat) : Bool := !isDir (a / blockBytes) && (s.placeOfGranule (a / blockBytes) (a % blockBytes / 128)).any fun pl => pl.part = p
  let kept (e : MemErr) : Bool := isDir e.frame.toNat || !(s.placeOfGranule e.frame.toNat e.noise.granule).any fun pl => pl.part = p
  { s with mem := { s.mem with mem := s.mem.mem.filter (fun c => !lost c.1), errs := s.mem.errs.filter kept } }

/-- A cold reset meets the migrations whose old home it strikes: the block is fenced, its queue discarded, and the manager cancels (Table 10.10). -/
def State.coldMigrations (s : State) (p : Nat) : State :=
  let hit := s.mem.migs.filter fun m => m.oldMod = s.me && !m.switched && s.frameOn m.oldFrame.toNat p
  hit.foldl (fun s m =>
    (((s.fence m.block).dropQueue m.block).modMig m.block fun m => { m with doomed := true }).tell (.migrationLost (BitVec.ofNat 32 m.block))) s

/-- SELF_REFRESH_CONFIRM (R468): confirmed, the reset is warm; not confirmed within 5 ms, it is cold: contents are lost, an evacuation
is over at once (R240), and every block with a granule here is held until it is rewritten (R471). -/
def execSelfRefreshConfirm (part : BitVec 4) (confirmed : Bool) (s : State) : Res :=
  let p := part.toNat
  inPart s p (match (s.part p).reset with
    | some r =>
      if r.warm.isSome then s
      else
        let s := if confirmed then s else s.reachMono (r.since.toNat + 5000000)
        let s := (s.modPart p fun x => { x with reset := some { r with warm := some confirmed } }).event (devNotice 0x11 p 0x20 (!confirmed).toNat)
        if confirmed then s
        else
          let s := if s.twinned && s.twin.phase ≠ .unpaired then s.emit (.twin (.relay .shadowLost)) else s
          let held := s.blocksOn p
          let s := (s.coldMigrations p).losePart p
          let s := match (s.part p).evacuation with
            | some m => s.subOut p m.sub
            | none => s
          { s with mem := { s.mem with held := (held.filter fun b => !s.mem.fenced.contains b).foldl setInsert s.mem.held } }
    | none => s)

/-- PARTITION_RESET_BOUND (R464): 6 s from its start the partition is not back in service, and a device reset takes its place. -/
def execPartitionResetBound (part : BitVec 4) (s : State) : Res :=
  let p := part.toNat
  inPart s p (match (s.part p).reset with
    | some r => (s.reachMono (r.since.toNat + 6000000000)).resetDevice
    | none => s)

/-- Rows of a partition retired and not repaired yet, at most the eight that one reset repairs (R234). -/
def State.pendingRepairs (s : State) (p : Nat) : List HealthEntry :=
  let log := s.boot.health
  (log.filter fun e => e.kind = 1#4 && (subOwner s.label.variant e.sub).1 = p && !(log.any fun x => x.kind = 2#4 && x.sameRow e)).take 8

/-- Repairs on the stack that has the most of them: 200 ms each (R234, Table 18.3). -/
def repairTime (es : List HealthEntry) : Nat :=
  200000000 * ((es.map fun e => es.countP fun x => x.stack = e.stack).foldl max 0)

/-- Migrations that a reset has met go on (Table 10.10): where this module is the old home, the transfer starts again at granule 0, or the queue is sent
again; where it is the new home alone, it asks the old home for that. -/
def State.restartTransfers (s : State) (p : Nat) : State :=
  s.mem.migs.foldl (fun s m =>
    let news := m.newMod = s.me && s.frameOn m.newFrame.toNat p
    if m.oldMod = s.me then (if news || s.frameOn m.oldFrame.toNat p then s.resume m.block else s)
    else if news && !m.through then s.send m.oldMod (.report (.transferAgain (BitVec.ofNat 32 m.block)))
    else s) s

/-- PARTITION_RETURN (R182, R473, Table 18.3): repairs made, scratchpad groups zeroed and the resident ones filled, the partition in service; the holds of a warm reset are lifted, and the
manager hears of it and recomputes. -/
def execPartitionReturn (part : BitVec 4) (s : State) : Res :=
  let p := part.toNat
  inPart s p (match (s.part p).reset with
    | some r =>
      if r.warm.isNone || s.boot.step < 4 then s
      else
        let reps := s.pendingRepairs p
        let s := s.reachMono (r.since.toNat + 1900000000 + repairTime reps)
        let s := reps.foldl State.repairRow s
        let s := (List.range s.nSub).foldl (fun s i => s.modSub (subGlobal s.label.variant p i) fun x => { x with retrained := s.time.mono }) s
        let s := (s.modPart p fun x => { x with reset := none, beatAt := s.time.mono, sp := [], bad := [] }).fillGroups p
        let s := (s.restartTransfers p).retryWaits fun w => w.why = .held
        let s := if s.isManager then { s with ae := { s.ae with dirty := true } } else s.tell (.partReturned p)
        s.pairSettle
    | none => s)

/-- Is a block of USE 5 covered by a DATA record (R472)? -/
def State.dataCovers (s : State) (b : Nat) : Bool :=
  (s.boot.plate.map (·.data)).any fun ds => ds.any fun d =>
    d.dest.toNat < (b + 1) * blockBytes && b * blockBytes < d.dest.toNat + d.bytes.length

/-- COLD_REWRITE (R472): a held block rewritten from the source of its use: bulk flash, the manager's directory, the twin module's block (`data`, which
came over the twin link), or zeros. Without a twin link a block that only the twin holds leads to a device reset. -/
def execColdRewrite (block : BitVec 32) (data : List Byte) (s : State) : Res :=
  let b := block.toNat
  let ready := s.mem.held.contains b && (s.homeOf b).any fun h => h.1 = s.me && !s.frameHeld h.2
  .next (if !ready then s
    else
      match s.useOf b with
      | 1 | 2 => (s.writeBlock b (s.sourceOf b)).unfence b
      | 6 => s.unfence b
      | 7 => if s.twinned && s.twin.phase ≠ .unpaired then (s.writeBlock b data).unfence b else s.resetDevice
      | 5 =>
        if !s.dataCovers b then (s.writeBlock b []).unfence b
        else if s.twinned && s.twin.phase ≠ .unpaired then (s.writeBlock b data).unfence b
        else s.resetDevice
      | _ => (s.writeBlock b []).unfence b)

/-! ## Self-tests (R477 to R479) -/

/-- SELF_TEST_REQUEST: a test of an array, VE or CSQ waits for the next lag-free window. -/
def execSelfTestRequest (part : BitVec 4) (engine : BitVec 8) (s : State) : Res :=
  inPart s part.toNat (if testable engine.toNat then s.modPart part.toNat fun x => { x with pendTests := setInsert x.pendTests engine.toNat } else s)

/-- A self-test failed: the first failure begins an engine reset that fails no stroke, a second in a row a partition reset; during a partition reset the
partition cannot return (R24, R479). -/
def State.testFailed (s : State) (p engine : Nat) : State :=
  let x := s.part p
  if x.reset.isSome then s.resetDevice
  else
    let s := s.modPart p fun x => { x with pendTests := x.pendTests.filter (· ≠ engine) }
    if x.testFails.contains engine then s.resetPart p false
    else (s.modPart p fun x => { x with testFails := setInsert x.testFails engine }).beginReset p engine true

/-- SELF_TEST_FAIL. -/
def execSelfTestFail (part : BitVec 4) (engine : BitVec 8) (s : State) : Res :=
  inPart s part.toNat (if testable engine.toNat then s.testFailed part.toNat engine.toNat else s)

/-- A self-test passed: failures in a row are over. -/
def State.testPassed (s : State) (p engine : Nat) : State :=
  s.modPart p fun x => { x with pendTests := x.pendTests.filter (· ≠ engine), testFails := x.testFails.filter (· ≠ engine) }

/-! ## Tenant teardown (R482, R512, R513) -/

/-- Observation, buffers and queues of the tenant zeroed (R482 step 5, R544). -/
def ObsState.scrub (o : ObsState) : ObsState :=
  { o with alarms := [], reserved := [], events := [], trace := [], post := none, frozen := false, gap := none, hang := [], dumps := [] }

/-- The teardown at S(k): sessions close with reason 0x4, endpoints and the job end, all work stops, the keys are destroyed, and 10 ms later all that the
tenant left is zero; the module holds with status 0x0A. -/
def State.tearDown (s : State) : State :=
  let s := { s with ae := { s.ae with isOpen := false, queue := [], awaiting := [] }, su := { s.su with teardown := none } }
  let s := (s.sess.list.map (·.key)).foldl (fun s k => s.closeSession k 4 0) s
  let s := s.destroyKeys
  let s := if s.time.ftSet then s.reach (s.time.ft.toNat + 10000000) else s
  let s := { s with sess := .reset, job := .reset, trans := { s.trans with eps := [] }, obs := s.obs.scrub, twin := .reset, su := .reset,
                    ae := { AeState.reset with manager := s.ae.manager, deputy := s.ae.deputy },
                    mem := { s.mem with mem := [], fenced := [], held := [], migs := [], freezeQ := [], waits := [], touch := [], protect := [],
                                        planned := [], lates := [], errs := [], sigWait := [], scrubBad := [] } }
  s.idleUnbound

/-- The manager names k, tells its modules, and relays it to the twin manager (R422, R482). -/
def State.nameTeardown (s : State) (k : Stroke) : State :=
  let s := ({ s with su := { s.su with teardown := some k } }).broadcast (.teardown k)
  if s.twinned then s.emit (.twin (.relay (.teardown k))) else s

/-- Has S(k) of a named teardown come? It then takes place. -/
def State.reachTeardown (s : State) : State :=
  match s.su.teardown with
  | some k => if k.toNat ≤ s.time.stroke.toNat then s.tearDown else s
  | none => s

/-- TENANT_TEARDOWN (R482): without k, the binding ends and the manager names its next boundary; with k, the record of the manager or, at the other
side's manager, the relay of it, which it passes on. -/
def execTenantTeardown (k : Option Stroke) (s : State) : Res :=
  .next (if s.boot.plate.isNone || s.su.teardown.isSome || s.boot.standing = .teardown then s
    else
      match k with
      | none => if s.isManager then s.nameTeardown (s.time.stroke + 1#48) else s
      | some k =>
        let s := { s with su := { s.su with teardown := some k } }
        (if s.isManager then s.broadcast (.teardown k) else s).reachTeardown)

end Sys2Proof.Machine
end

