-- ==== Sys2Proof/Machine/Programs.lean ====
section
/-! DEFINITION. Programs.lean: the meanings of the program commands that an owner issues to an engine (spec/03 Table 3.3): each is the
attempt to issue the command from the head of its stream, which hands it to its engine when its wait holds and the engine can accept it. -/
namespace Sys2Proof.Machine

/-- NOP (R271, R562): every engine accepts it and it completes at once, its signal behind the engine's earlier writes. -/
def execNop (i : Issue) (s : State) : Res :=
  let p := i.part.toNat
  inPart s p (match s.verdict i true (plateCmd i.hdr .nop .none) with
    | .blocked => s
    | .limit => s.expireCmd p i.hdr.engine.toNat i.hdr.cls
    | .waiting => s.noteWait i
    | .caught => s.retireCaught i .nop .none
    | .go =>
      let c := s.runCmd i .nop .none
      let s := ((s.takeSerial p).2.sigEn p i.hdr.engine.toNat c.serial i.hdr).traceCmd p i.hdr.engine.toNat c 0
      (s.executed i .next).runOn p)

/-- MLOAD (R105): shadow-loads a weight tile. -/
def execMload (i : Issue) (o : MatOps) (s : State) : Res := issueEngine i .mload (.mat o) s
/-- MMUL (R98): streams activation rows through the loaded tile. -/
def execMmul (i : Issue) (o : MatOps) (s : State) : Res := issueEngine i .mmul (.mat o) s
/-- MDRAIN (R123): converts accumulators into scratchpad. -/
def execMdrain (i : Issue) (o : MatOps) (s : State) : Res := issueEngine i .mdrain (.mat o) s
/-- Vector operation FADD (R157, Table 6.4). -/
def execFadd (i : Issue) (o : VecOps) (s : State) : Res := issueEngine i (.vop .fadd) (.vec o) s
/-- Vector operation FSUB (R157, Table 6.4). -/
def execFsub (i : Issue) (o : VecOps) (s : State) : Res := issueEngine i (.vop .fsub) (.vec o) s
/-- Vector operation FMUL (R157, Table 6.4). -/
def execFmul (i : Issue) (o : VecOps) (s : State) : Res := issueEngine i (.vop .fmul) (.vec o) s
/-- Vector operation FFMA (R157, Table 6.4). -/
def execFfma (i : Issue) (o : VecOps) (s : State) : Res := issueEngine i (.vop .ffma) (.vec o) s
/-- Vector operation FDIV (R157, Table 6.4). -/
def execFdiv (i : Issue) (o : VecOps) (s : State) : Res := issueEngine i (.vop .fdiv) (.vec o) s
/-- Vector operation FMIN (R139, Table 6.4). -/
def execFmin (i : Issue) (o : VecOps) (s : State) : Res := issueEngine i (.vop .fmin) (.vec o) s
/-- Vector operation FMAX (R139, Table 6.4). -/
def execFmax (i : Issue) (o : VecOps) (s : State) : Res := issueEngine i (.vop .fmax) (.vec o) s
/-- Vector operation FMINNUM (R157, Table 6.4). -/
def execFminnum (i : Issue) (o : VecOps) (s : State) : Res := issueEngine i (.vop .fminnum) (.vec o) s
/-- Vector operation FMAXNUM (R157, Table 6.4). -/
def execFmaxnum (i : Issue) (o : VecOps) (s : State) : Res := issueEngine i (.vop .fmaxnum) (.vec o) s
/-- Vector operation FCMPEQ (R157, Table 6.4). -/
def execFcmpeq (i : Issue) (o : VecOps) (s : State) : Res := issueEngine i (.vop (.fcmp .eq)) (.vec o) s
/-- Vector operation FCMPNE (R157, Table 6.4). -/
def execFcmpne (i : Issue) (o : VecOps) (s : State) : Res := issueEngine i (.vop (.fcmp .ne)) (.vec o) s
/-- Vector operation FCMPLT (R157, Table 6.4). -/
def execFcmplt (i : Issue) (o : VecOps) (s : State) : Res := issueEngine i (.vop (.fcmp .lt)) (.vec o) s
/-- Vector operation FCMPLE (R157, Table 6.4). -/
def execFcmple (i : Issue) (o : VecOps) (s : State) : Res := issueEngine i (.vop (.fcmp .le)) (.vec o) s
/-- Vector operation FCMPGT (R157, Table 6.4). -/
def execFcmpgt (i : Issue) (o : VecOps) (s : State) : Res := issueEngine i (.vop (.fcmp .gt)) (.vec o) s
/-- Vector operation FCMPGE (R157, Table 6.4). -/
def execFcmpge (i : Issue) (o : VecOps) (s : State) : Res := issueEngine i (.vop (.fcmp .ge)) (.vec o) s
/-- Vector operation FABS (R157, Table 6.4). -/
def execFabs (i : Issue) (o : VecOps) (s : State) : Res := issueEngine i (.vop .fabs) (.vec o) s
/-- Vector operation FNEG (R157, Table 6.4). -/
def execFneg (i : Issue) (o : VecOps) (s : State) : Res := issueEngine i (.vop .fneg) (.vec o) s
/-- Vector operation FSQRT (R157, Table 6.4). -/
def execFsqrt (i : Issue) (o : VecOps) (s : State) : Res := issueEngine i (.vop .fsqrt) (.vec o) s
/-- Vector operation FRSQRT (R157, Table 6.4). -/
def execFrsqrt (i : Issue) (o : VecOps) (s : State) : Res := issueEngine i (.vop .frsqrt) (.vec o) s
/-- Vector operation FRCP (R157, Table 6.4). -/
def execFrcp (i : Issue) (o : VecOps) (s : State) : Res := issueEngine i (.vop .frcp) (.vec o) s
/-- Vector operation FEXP (R157, Table 6.4). -/
def execFexp (i : Issue) (o : VecOps) (s : State) : Res := issueEngine i (.vop .fexp) (.vec o) s
/-- Vector operation FEXP2 (R157, Table 6.4). -/
def execFexp2 (i : Issue) (o : VecOps) (s : State) : Res := issueEngine i (.vop .fexp2) (.vec o) s
/-- Vector operation FLOG (R157, Table 6.4). -/
def execFlog (i : Issue) (o : VecOps) (s : State) : Res := issueEngine i (.vop .flog) (.vec o) s
/-- Vector operation FLOG2 (R157, Table 6.4). -/
def execFlog2 (i : Issue) (o : VecOps) (s : State) : Res := issueEngine i (.vop .flog2) (.vec o) s
/-- Vector operation FTANH (R157, Table 6.4). -/
def execFtanh (i : Issue) (o : VecOps) (s : State) : Res := issueEngine i (.vop .ftanh) (.vec o) s
/-- Vector operation FSIGM (R157, Table 6.4). -/
def execFsigm (i : Issue) (o : VecOps) (s : State) : Res := issueEngine i (.vop .fsigm) (.vec o) s
/-- Vector operation FSILU (R157, Table 6.4). -/
def execFsilu (i : Issue) (o : VecOps) (s : State) : Res := issueEngine i (.vop .fsilu) (.vec o) s
/-- Vector operation FFLOOR (R157, Table 6.4). -/
def execFfloor (i : Issue) (o : VecOps) (s : State) : Res := issueEngine i (.vop .ffloor) (.vec o) s
/-- Vector operation FROUND (R157, Table 6.4). -/
def execFround (i : Issue) (o : VecOps) (s : State) : Res := issueEngine i (.vop .fround) (.vec o) s
/-- Vector operation IADD (R157, Table 6.4). -/
def execIadd (i : Issue) (o : VecOps) (s : State) : Res := issueEngine i (.vop .iadd) (.vec o) s
/-- Vector operation IADDS (R157, Table 6.4). -/
def execIadds (i : Issue) (o : VecOps) (s : State) : Res := issueEngine i (.vop .iadds) (.vec o) s
/-- Vector operation ISUB (R157, Table 6.4). -/
def execIsub (i : Issue) (o : VecOps) (s : State) : Res := issueEngine i (.vop .isub) (.vec o) s
/-- Vector operation ISUBS (R157, Table 6.4). -/
def execIsubs (i : Issue) (o : VecOps) (s : State) : Res := issueEngine i (.vop .isubs) (.vec o) s
/-- Vector operation IMUL (R157, Table 6.4). -/
def execImul (i : Issue) (o : VecOps) (s : State) : Res := issueEngine i (.vop .imul) (.vec o) s
/-- Vector operation IMULS (R157, Table 6.4). -/
def execImuls (i : Issue) (o : VecOps) (s : State) : Res := issueEngine i (.vop .imuls) (.vec o) s
/-- Vector operation IAND (R157, Table 6.4). -/
def execIand (i : Issue) (o : VecOps) (s : State) : Res := issueEngine i (.vop .iand) (.vec o) s
/-- Vector operation IOR (R157, Table 6.4). -/
def execIor (i : Issue) (o : VecOps) (s : State) : Res := issueEngine i (.vop .ior) (.vec o) s
/-- Vector operation IXOR (R157, Table 6.4). -/
def execIxor (i : Issue) (o : VecOps) (s : State) : Res := issueEngine i (.vop .ixor) (.vec o) s
/-- Vector operation INOT (R157, Table 6.4). -/
def execInot (i : Issue) (o : VecOps) (s : State) : Res := issueEngine i (.vop .inot) (.vec o) s
/-- Vector operation ISHL (R157, Table 6.4). -/
def execIshl (i : Issue) (o : VecOps) (s : State) : Res := issueEngine i (.vop .ishl) (.vec o) s
/-- Vector operation ISHR (R157, Table 6.4). -/
def execIshr (i : Issue) (o : VecOps) (s : State) : Res := issueEngine i (.vop .ishr) (.vec o) s
/-- Vector operation ISRA (R157, Table 6.4). -/
def execIsra (i : Issue) (o : VecOps) (s : State) : Res := issueEngine i (.vop .isra) (.vec o) s
/-- Vector operation IMIN (R157, Table 6.4). -/
def execImin (i : Issue) (o : VecOps) (s : State) : Res := issueEngine i (.vop .imin) (.vec o) s
/-- Vector operation IMAX (R157, Table 6.4). -/
def execImax (i : Issue) (o : VecOps) (s : State) : Res := issueEngine i (.vop .imax) (.vec o) s
/-- Vector operation UMIN (R157, Table 6.4). -/
def execUmin (i : Issue) (o : VecOps) (s : State) : Res := issueEngine i (.vop .umin) (.vec o) s
/-- Vector operation UMAX (R157, Table 6.4). -/
def execUmax (i : Issue) (o : VecOps) (s : State) : Res := issueEngine i (.vop .umax) (.vec o) s
/-- Vector operation ICMPEQ (R157, Table 6.4). -/
def execIcmpeq (i : Issue) (o : VecOps) (s : State) : Res := issueEngine i (.vop .icmpeq) (.vec o) s
/-- Vector operation ICMPLT (R157, Table 6.4). -/
def execIcmplt (i : Issue) (o : VecOps) (s : State) : Res := issueEngine i (.vop .icmplt) (.vec o) s
/-- Vector operation UCMPLT (R157, Table 6.4). -/
def execUcmplt (i : Issue) (o : VecOps) (s : State) : Res := issueEngine i (.vop .ucmplt) (.vec o) s
/-- Vector operation COPY (R157, Table 6.4). -/
def execCopy (i : Issue) (o : VecOps) (s : State) : Res := issueEngine i (.vop .copy) (.vec o) s
/-- Vector operation SEL (R157, Table 6.4). -/
def execSel (i : Issue) (o : VecOps) (s : State) : Res := issueEngine i (.vop .sel) (.vec o) s
/-- Vector operation IOTA (R157, Table 6.4). -/
def execIota (i : Issue) (o : VecOps) (s : State) : Res := issueEngine i (.vop .iota) (.vec o) s
/-- Vector operation GATHER (R157, Table 6.4). -/
def execGather (i : Issue) (o : VecOps) (s : State) : Res := issueEngine i (.vop .gather) (.vec o) s
/-- Vector operation FILL (R157, Table 6.4). -/
def execFill (i : Issue) (o : VecOps) (s : State) : Res := issueEngine i (.vop .fill) (.vec o) s
/-- Vector operation FSCAN (R157, Table 6.4). -/
def execFscan (i : Issue) (o : VecOps) (s : State) : Res := issueEngine i (.vop .fscan) (.vec o) s
/-- Vector operation SUMM (R155, Table 6.4). -/
def execSumm (i : Issue) (o : VecOps) (s : State) : Res := issueEngine i (.vop .summ) (.vec o) s
/-- Vector operation SUMMI (R155, Table 6.4). -/
def execSummi (i : Issue) (o : VecOps) (s : State) : Res := issueEngine i (.vop .summi) (.vec o) s
/-- Vector operation MLD (R161, Table 6.4). -/
def execMld (i : Issue) (o : VecOps) (s : State) : Res := issueEngine i (.vop .mld) (.vec o) s
/-- Vector operation CVT (R158, Table 6.4). -/
def execCvt (i : Issue) (o : VecOps) (s : State) : Res := issueEngine i (.vop .cvt) (.vec o) s
/-- Vector operation TOPK (R157, Table 6.4). -/
def execTopk (i : Issue) (o : VecOps) (s : State) : Res := issueEngine i (.vop .topk) (.vec o) s
/-- Vector operation RAND (R159, Table 6.4). -/
def execRand (i : Issue) (o : VecOps) (s : State) : Res := issueEngine i (.vop .rand) (.vec o) s
/-- Vector operation RANDU (R159, Table 6.4). -/
def execRandu (i : Issue) (o : VecOps) (s : State) : Res := issueEngine i (.vop .randu) (.vec o) s
/-- Vector operation STATRD (R160, Table 6.4). -/
def execStatrd (i : Issue) (o : VecOps) (s : State) : Res := issueEngine i (.vop .statrd) (.vec o) s
/-- DCOPY (R259): copies granules. -/
def execDcopy (i : Issue) (o : DeOps) (s : State) : Res := issueEngine i .dcopy (.de o) s
/-- DWALK (R205): walks page lists and expands stipple. -/
def execDwalk (i : Issue) (o : DeOps) (s : State) : Res := issueEngine i .dwalk (.de o) s
/-- DSTAGE (R193): appends new keys and values to staging. -/
def execDstage (i : Issue) (o : DeOps) (s : State) : Res := issueEngine i .dstage (.de o) s
/-- DSEAL (R194): seals full pages with their sketch entries. -/
def execDseal (i : Issue) (o : DeOps) (s : State) : Res := issueEngine i .dseal (.de o) s
/-- Sketch upkeep, a class 2 DSEAL (R202). -/
def execSketchUpkeep (i : Issue) (o : DeOps) (s : State) : Res := issueEngine i .upkeep (.de o) s
/-- Atomic operation ADD32 at the home (R280, Table 11.2). -/
def execAdd32 (i : Issue) (o : DeOps) (s : State) : Res := issueEngine i (.datom .add32) (.de o) s
/-- Atomic operation ADD64 at the home (R280, Table 11.2). -/
def execAdd64 (i : Issue) (o : DeOps) (s : State) : Res := issueEngine i (.datom .add64) (.de o) s
/-- Atomic operation SMIN32 at the home (R280, Table 11.2). -/
def execSmin32 (i : Issue) (o : DeOps) (s : State) : Res := issueEngine i (.datom .smin32) (.de o) s
/-- Atomic operation SMIN64 at the home (R280, Table 11.2). -/
def execSmin64 (i : Issue) (o : DeOps) (s : State) : Res := issueEngine i (.datom .smin64) (.de o) s
/-- Atomic operation SMAX32 at the home (R280, Table 11.2). -/
def execSmax32 (i : Issue) (o : DeOps) (s : State) : Res := issueEngine i (.datom .smax32) (.de o) s
/-- Atomic operation SMAX64 at the home (R280, Table 11.2). -/
def execSmax64 (i : Issue) (o : DeOps) (s : State) : Res := issueEngine i (.datom .smax64) (.de o) s
/-- Atomic operation UMIN32 at the home (R280, Table 11.2). -/
def execUmin32 (i : Issue) (o : DeOps) (s : State) : Res := issueEngine i (.datom .umin32) (.de o) s
/-- Atomic operation UMIN64 at the home (R280, Table 11.2). -/
def execUmin64 (i : Issue) (o : DeOps) (s : State) : Res := issueEngine i (.datom .umin64) (.de o) s
/-- Atomic operation UMAX32 at the home (R280, Table 11.2). -/
def execUmax32 (i : Issue) (o : DeOps) (s : State) : Res := issueEngine i (.datom .umax32) (.de o) s
/-- Atomic operation UMAX64 at the home (R280, Table 11.2). -/
def execUmax64 (i : Issue) (o : DeOps) (s : State) : Res := issueEngine i (.datom .umax64) (.de o) s
/-- Atomic operation SWAP32 at the home (R280, Table 11.2). -/
def execSwap32 (i : Issue) (o : DeOps) (s : State) : Res := issueEngine i (.datom .swap32) (.de o) s
/-- Atomic operation SWAP64 at the home (R280, Table 11.2). -/
def execSwap64 (i : Issue) (o : DeOps) (s : State) : Res := issueEngine i (.datom .swap64) (.de o) s
/-- Atomic operation CAS32 at the home (R280, Table 11.2). -/
def execCas32 (i : Issue) (o : DeOps) (s : State) : Res := issueEngine i (.datom .cas32) (.de o) s
/-- Atomic operation CAS64 at the home (R280, Table 11.2). -/
def execCas64 (i : Issue) (o : DeOps) (s : State) : Res := issueEngine i (.datom .cas64) (.de o) s
/-- Atomic operation FADD32 at the home (R282, Table 11.2). -/
def execFadd32 (i : Issue) (o : DeOps) (s : State) : Res := issueEngine i (.datom .fadd32) (.de o) s
/-- Atomic operation BFADD16 at the home (R282, Table 11.2). -/
def execBfadd16 (i : Issue) (o : DeOps) (s : State) : Res := issueEngine i (.datom .bfadd16) (.de o) s
/-- DSIGNAL (R78): signals a semaphore anywhere in the domain. -/
def execDsignal (i : Issue) (o : DeOps) (s : State) : Res := issueEngine i .dsignal (.de o) s
/-- DPROOF, range form (R426). -/
def execDproofRange (i : Issue) (o : DeOps) (s : State) : Res := issueEngine i .dproofRange (.de o) s
/-- DPROOF, row form (R426). -/
def execDproofRow (i : Issue) (o : DeOps) (s : State) : Res := issueEngine i .dproofRow (.de o) s
/-- DEMIT (R91): hands the rows' due outputs to their rings. -/
def execDemit (i : Issue) (o : DeOps) (s : State) : Res := issueEngine i .demit (.de o) s
/-- CINV (R275): invalidates a range of the die cache. -/
def execCinv (i : Issue) (o : DeOps) (s : State) : Res := issueEngine i .cinv (.de o) s

end Sys2Proof.Machine
end

