-- ==== Sys2Proof/Machine/Sideband.lean ====
section
/-! DEFINITION. Sideband.lean: the SMBus target, its pins, and the detach request (spec/22 R546, R553 to R557). -/
namespace Sys2Proof.Machine

/-! ## STATUS and the pins -/

/-- STATUS CODE (R557): the code of the start or of what holds the module, 0x0C while the trip latch holds the main rails off. -/
def State.statusCode (s : State) : Nat := if s.pwr.latch then 0x0C else s.boot.code.toNat

/-- The STATUS word (Table 22.6). -/
def State.statusWord (s : State) : Nat :=
  s.statusCode * 256 + s.pwr.refused.toNat * 128 + s.pwr.grant.toNat * 64 + (!s.pwr.outOff.isEmpty).toNat * 32 + s.pwr.inletHigh.toNat * 16 +
    s.sec.destroyed.toNat * 8

/-- MAIN_OK is high while main power is good (R546). -/
def State.mainOk (s : State) : Bool := s.pwr.good

/-- FAULT_N is low while STATUS holds a failure or trip code (R546). -/
def State.faultLow (s : State) : Bool := s.statusCode = 0x0C || 0x80 ≤ s.statusCode

/-- CFG_GNT_N is low while a claim on the configuration flash is granted (R546). -/
def State.grantLow (s : State) : Bool := s.pwr.grant

/-- SMB_ALERT_N is asserted on a fault, an inlet above 35 °C, or an auxiliary output that is off (R555). -/
def State.alertLow (s : State) : Bool := s.faultLow || s.pwr.inletHigh || !s.pwr.outOff.isEmpty

/-- The 7-bit target address (R553). -/
def State.smbAddress (s : State) : Nat := 0x58 + s.pwr.smbAddr.toNat

/-! ## Reads (R556, Table 22.5) -/

/-- The content bytes that the target returns; without the auxiliary domain nothing answers. -/
def State.answer (s : State) (bytes : List Byte) : State := if s.pwr.aux then s.emit (.sideband bytes) else s

/-- A Read Word, low byte first. -/
def State.answerWord (s : State) (v : Nat) : State := s.answer (leBytes 2 v)

/-- A signed reading as its 16 bits. -/
def signedWord (t : Int) : Nat := (BitVec.ofInt 16 t).toNat

/-- The largest of some readings, 0 of none. -/
def hottest : List Int → Int
  | [] => 0
  | t :: r => r.foldl max t

/-- STATUS. -/
def execStatus (s : State) : Res := .next (s.answerWord s.statusWord)

/-- POWER: input power in 0.1 W. -/
def execPower (s : State) : Res := .next (s.answerWord s.pwr.now.power.toNat)

/-- ENERGY: the energy counter in mJ, eight bytes. -/
def execEnergy (s : State) : Res := .next (s.answer (leBytes 8 s.pwr.energy.toNat))

/-- MAIN_V. -/
def execMainV (s : State) : Res := .next (s.answerWord s.pwr.now.mainV.toNat)

/-- MAIN_I. -/
def execMainI (s : State) : Res := .next (s.answerWord s.pwr.now.mainI.toNat)

/-- AUX_V. -/
def execAuxV (s : State) : Res := .next (s.answerWord s.pwr.now.auxV.toNat)

/-- AUX_I. -/
def execAuxI (s : State) : Res := .next (s.answerWord s.pwr.now.auxI.toNat)

/-- INLET, in 0.5 °C. -/
def execInlet (s : State) : Res := .next (s.answerWord (signedWord s.pwr.inlet))

/-- HOT_CD: the hottest compute-die sensor. -/
def execHotCd (s : State) : Res := .next (s.answerWord (signedWord (hottest s.pwr.cd)))

/-- HOT_MS: the hottest stack, whose readings are in °C. -/
def execHotMs (s : State) : Res := .next (s.answerWord (signedWord (2 * hottest (s.mem.stackSt.map fun x => x.2.celsius))))

/-- HOT_LD: the hottest link-die sensor. -/
def execHotLd (s : State) : Res := .next (s.answerWord (signedWord (hottest s.pwr.ld)))

/-- STAGE: the stage, and a bit for each reason with an open throttle event. -/
def execStage (s : State) : Res :=
  .next (s.answerWord (max s.pwr.pstage s.pwr.tstage * 256 +
    ((List.range 8).map fun k => if s.pwr.open_.any fun t => t.reason.toNat = k + 1 then 2 ^ k else 0).sum))

/-- TRIP: die code of the last trip, trips since the auxiliary domain started, latch. -/
def execTrip (s : State) : Res := .next (s.answerWord (s.pwr.tripDie.toNat * 256 + (s.pwr.trips % 128) * 2 + s.pwr.latch.toNat))

/-- IDENTITY: the SHA3-512 of the identity public key. -/
def execIdentity (s : State) : Res := .next (s.answer (leBytes 64 s.label.identity.toNat))

/-- The part number of a variant (Table 0.1). -/
def partNumber (v : Variant) : String :=
  match v with
  | .a16 => "SKZ-A16"
  | .m12 => "SKZ-M12"
  | .n12 => "SKZ-N12"

/-- LABEL: part number, serial, revision, host MAC and four reserved bytes. -/
def execLabel (s : State) : Res :=
  .next (s.answer (ascii (partNumber s.label.variant) ++ leBytes 5 Config.labelFill.toNat ++ leBytes 8 s.label.serial.toNat ++
    leBytes 2 s.label.revision.toNat ++ leBytes 6 s.label.mac.toNat ++ leBytes 4 0))

/-- REPORT: up to 255 bytes of the attestation report from an offset, none past its end. -/
def execReport (offset : BitVec 32) (s : State) : Res := .next (s.answer (((s.report 0#512 true).drop offset.toNat).take 255))

/-- SMB_ALERT_RESPONSE (R555): a module that asserts the alert answers with its address. -/
def execSmbAlertResponse (s : State) : Res := .next (if s.alertLow then s.answer [BitVec.ofNat 8 s.smbAddress] else s)

/-- Command codes of Table 22.5. -/
def smbListed (code : BitVec 8) : Bool := 1 ≤ code.toNat && code.toNat ≤ 0x10

/-- SMB_UNSUPPORTED_PROTOCOL (R553, R556): NACK at the command byte; nothing changes. A read of a listed code is no such transaction. -/
def execSmbUnsupportedProtocol (p : SmbProto) (code : BitVec 8) (s : State) : Res :=
  .next (if !s.pwr.aux || (p = .readReserved && smbListed code) then s else s.emit .smbNack)

/-! ## Detach request (R554) -/

/-- DETACH_REQUEST: DETACH_N held low for 100 ms. A serving module acts on it, a starting one once it serves; it is ignored otherwise. -/
def execDetachRequest (s : State) : Res :=
  .next (match s.boot.standing with
    | .serving => s.detach
    | .starting => s.modTwin fun t => { t with detachReq := true }
    | _ => s)

/-- A detach request of the start acted on now that the module serves. -/
def State.actOnRequest (s : State) : State :=
  if s.twin.detachReq && s.boot.standing = .serving then (s.modTwin fun t => { t with detachReq := false }).detach else s

end Sys2Proof.Machine
end

