-- ==== Sys2Proof/Machine/Stroke.lean ====
section
/-! DEFINITION. Stroke.lean: the stroke unit: boundary actions, work strokes and their completion, the due point and the lag-free window, the close,
batch tables on their way into the partitions (spec/02 R46 to R58, spec/03 R63 to R64, R75, R82, spec/18 R467). -/
namespace Sys2Proof.Machine

/-- Does the SU run: the module starts or serves? -/
def State.running (s : State) : Bool := s.boot.standing = .starting || s.boot.standing = .serving

/-! ## Restores after a failed stroke (R341, R435, R467) -/

/-- The blocks that hold a session's pages and area. -/
def State.blocksOf (s : State) (x : Session) : List Nat :=
  let k := s.frameBlocks x.inst x.terms x.pageLog2.toNat x.chunk.toNat
  (x.frames.flatMap fun f => (List.range k).map fun i => f.toNat + i) ++ (List.range x.areaLen).map fun i => x.area.toNat + i

/-- The record of a session before its first row. -/
def Session.firstRecord (x : Session) : SessionRec := { x.record 0#48 with commitEnd := 0#32, pageCount := 0#32, outNext := 0#32 }

/-- The resume record for a failed stroke: the newest written before it, that with which the session came here, or that of its admission. -/
def Session.resumeRec (x : Session) (w : Stroke) : SessionRec :=
  match x.resumes.find? fun r => r.proof.toNat < w.toNat with
  | some r => r
  | none => x.proofRec.getD x.firstRecord

/-- The newest of a session's marks, with its layer. -/
def newestMark : SMap Mark → Option (Nat × Mark)
  | [] => none
  | m :: r =>
    match newestMark r with
    | some b => if b.2.proof.toNat < m.2.proof.toNat then some m else some b
    | none => some m

/-- A record at a mark: the output after those whose tokens its committed end takes in. -/
def SessionRec.atMark (r : SessionRec) (m : Mark) : SessionRec :=
  let e := m.commitEnd
  let lp := r.lp.toNat
  { r with proof := m.proof, commitEnd := BitVec.ofNat 32 e, pageCount := BitVec.ofNat 32 m.pageCount,
           outNext := BitVec.ofNat 32 (if e < lp then 0 else e - lp + 1) }

/-- A session of a failed stroke restored on this module. With a block of its state fenced it resumes from its newest committed proof, under exclusion
0x5 unless that is one of layer 1. -/
def restoreOne (w : Stroke) (s : State) (x : Session) : State :=
  let lost := (s.blocksOf x).any s.mem.fenced.contains
  let best := newestMark x.marks
  let r := if !lost then x.resumeRec w
    else match best with
      | some m => SessionRec.atMark (x.resumeRec w) m.2
      | none => x.firstRecord
  let s := if lost && !best.any (fun m => m.1 = 1) then s.beginExcl 5 (some x.key) else s
  let s := s.resumeSession x.key r (x.ring.map (·.2)) (s.shiftOf x.inst)
  s.modSession x.key fun y => { y with lastRow := w, resumes := y.resumes.filter fun q => q.proof.toNat < w.toNat }

/-- Rows of some sessions taken out of the tables to come; a table that loses one is written anew. -/
def State.dropRows (s : State) (xs : List Session) : State :=
  let gone (r : BatchRow) : Bool := xs.any fun x => x.owns r
  let cut := (s.su.next.filter fun t => t.rows.any gone).map fun t => (t.inst, t.stroke)
  let keep (r : BatchRow) : Bool := !gone r
  { s with su := { s.su with next := s.su.next.map (fun t => { t with rows := t.rows.filter keep }),
                             written := s.su.written.filter fun q => !cut.contains q },
           sess := { s.sess with carried := s.sess.carried.filter fun c => keep c.row } }

/-- The charges of the sessions that had a row in a failed stroke move with their schedules (R341). -/
def State.moveCharges (s : State) (inst : BitVec 16) (w : Stroke) : State :=
  match s.isManager, s.admRec inst with
  | true, some a =>
    let x := BitVec.ofNat 48 (s.shiftOf inst)
    let hit (e : LedgerEntry) : Bool := e.inst = inst && (s.cclass e.terms.cclass).any fun c => hasRow (scheduleCharges a c e w.toNat)
    let move (e : LedgerEntry) : LedgerEntry := { e with first := e.first + x, begin_ := e.begin_ + x, replays := [s.time.stroke + 1#48] }
    { s with ae := { s.ae with ledger := s.ae.ledger.map (fun e => if hit e then move e else e), dirty := true } }
  | _, _ => s

/-- The sessions of an instance that are to be restored from a failed stroke. -/
def State.hitBy (s : State) (q : BitVec 16 × Stroke) : List Session :=
  (s.instSessions q.1).filter fun x => x.ranIn q.2 && x.closing.isNone && x.suspended.isNone

/-- One failed stroke of an instance, restored. -/
def restoreInst (s : State) (q : BitVec 16 × Stroke) : State :=
  let xs := s.hitBy q
  ((xs.foldl (restoreOne q.2) s).dropRows xs).moveCharges q.1 q.2

/-- At the first boundary after its detection a failed stroke is restored from (R341), resident groups with an uncorrectable word refilled before
(R243). -/
def State.restoreFailed (s : State) : State :=
  let s := s.su.restore.foldl restoreInst (if s.su.restore.isEmpty then s else s.refillBad)
  { s with su := { s.su with restore := [] } }

/-! ## Boundary actions (R48) -/

/-- The map-out of a partition that begins at a boundary: its first that has not begun, unless an evacuation runs there, for which it waits (R239). -/
def Part.nextOut (x : Part) : Option MapOut := if x.evacuation.isSome then none else x.mapOuts.find? fun m => !m.begun

/-- A map-out begins: the module reports the subchannels that its partition keeps in service, its reduced capacity and the vacated frames, whose blocks
migrate away (R225, R236, R239). -/
def State.beginOut (s : State) (p : Nat) (m : MapOut) : State :=
  let g := subGlobal s.label.variant p m.sub
  let s := s.modMapOut p m.sub fun m => { m with begun := true }
  let s := (s.level (modCtr 0x0034 g) 1).event (devNotice 0x15 p 0x24 g)
  let frames := (s.vacatedIn p).map (BitVec.ofNat 20)
  let s := ((s.tell (.subchannelOut g)).tell (.capacity p (s.nSub - s.begunOuts p) s.capacityFrames)).tell (.vacated frames)
  if s.isManager then
    { s with ae := { s.ae with dirty := true }, mem := { s.mem with wanted := (s.vacatedBlocks p).foldl setInsert s.mem.wanted } }
  else s

/-- Map-outs triggered since the last boundary begin, one in each partition (R236, R239). -/
def State.beginOuts (s : State) : State :=
  (List.range s.label.variant.parts).foldl (fun s p => match (s.part p).nextOut with
    | some m => s.beginOut p m
    | none => s) s

/-- A worker whose return the manager has acknowledged is ALIGNED again (R41). -/
def State.returnAligned (s : State) : State :=
  if s.time.offAcked && s.time.worker = .offPlan then
    ((s.modTime fun t => { t with worker := .aligned, offSince := none, offAcked := false, nearRuns := 0, awayRuns := 0 }).event
      (devNotice 0x13 0x40 0x30 0)).noteTime
  else s

/-- The manager releases the slots of the modules that have gone OFF-PLAN, and gives back those of modules whose return it has acknowledged (R42). -/
def State.freeSlots (s : State) : State :=
  let back := s.su.pendBack
  let ae : AeState := { s.ae with dirty := s.ae.dirty || !s.su.pendFree.isEmpty || !back.isEmpty }
  let freed := (s.su.pendFree.foldl setInsert s.su.freed).filter fun m => !back.contains m
  let s := { s with su := { s.su with freed := freed, pendFree := [], pendBack := [] }, ae := ae }
  back.foldl (fun s m => s.modInfo (BitVec.ofNat 10 m) fun x => { x with offPlan := none }) s

/-- Closed sessions whose work is over here and that this module has reported so are forgotten; the manager's ledger keeps what it holds (R480). -/
def State.forgetClosed (s : State) : State :=
  let gone (x : Session) : Bool := x.closing.any (·.drained)
  { s with sess := { s.sess with list := s.sess.list.filter fun x => !gone x } }

/-- The twin's STATE record of a boundary: FT, lag in µs, module state and pair state (Table 16.2). A worker does not know its module state
(notes/assumptions/39). -/
def State.sendTwinState (s : State) : State :=
  if s.twinned && s.twinUp then
    let code : BitVec 2 := if !s.isManager then 0#2 else match (s.info s.me).adm with
      | .normal => 0#2
      | .exposed => 1#2
      | .strained => 2#2
    s.emit (.twin (.state ⟨s.time.ft, BitVec.ofNat 32 ((s.su.lag + 999) / 1000), code, BitVec.ofNat 2 s.pairCode⟩))
  else s

/-- The VALIDATE entries of an instance that the twin holds begin once every session held has committed; an instance without entries has passed
(R437). -/
def rejoinInst (s : State) (i : BitVec 16) : State :=
  let known : Bool := s.boot.passed.contains i || (SMap.find s.boot.valid i.toNat).isSome
  if known || !(s.sess.shadow.filter fun x => x.inst = i).all (fun x => x.proofRec.isSome) then s
  else if (s.validEntries i).isEmpty then { s with boot := { s.boot with passed := s.boot.passed ++ [i] } }
  else { s with boot := { s.boot with valid := SMap.insert s.boot.valid i.toNat ⟨0, none⟩ } }

/-- The instances led here that are catching up. -/
def State.rejoin (s : State) : State :=
  if s.twin.phase = .catchingUp then (s.ledInsts.filter s.twin.away.contains).foldl rejoinInst s else s

/-- The boundary named before NOT_AFTER: a manager whose binding ends by the next boundary names that one (R482, R513). -/
def State.nameEnd (s : State) : State :=
  let k := s.time.stroke.toNat + 1
  if s.isManager && s.su.teardown.isNone && s.sec.setup.notAfter ≠ 0#64 && s.sec.setup.notAfter.toNat ≤ s.strokeStart k then
    s.nameTeardown (BitVec.ofNat 48 k)
  else s

/-- The actions of a boundary after the index: directory updates, then what other rules put at a boundary. -/
def State.boundary (s : State) : State :=
  let s := s.applyDue.enterSuccession.enterTakeovers.reachTeardown
  if !s.running then s
  else
    let s := s.nameEnd.discardDeclared.restoreFailed.releaseDrained.forgetClosed.beginOuts.returnAligned.freeSlots.openAdmission
    let s := s.settleHandovers.actOnRequest.finishDetach
    let s := { s with su := { s.su with catchAt := s.su.catchAt.filter fun k => s.su.work.toNat ≤ k } }
    s.recompute.sendTwinState.rejoin.startValidation

/-- STROKE_BOUNDARY (R48): at S(n) the stroke index becomes n, on FT and whatever the engines do. -/
def execStrokeBoundary (s : State) : Res :=
  .next (if !s.time.ftSet || s.boot.plate.isNone then s
    else
      let n := s.time.stroke.toNat + 1
      let s := (s.reach (s.strokeStart n)).modTime fun t => { t with stroke := BitVec.ofNat 48 n }
      if s.running then s.boundary else s)

/-! ## The work stroke (R55, R63, R64) -/

/-- The next work stroke: the one after that whose work is complete, or the current stroke where none has begun. -/
def State.nextWork (s : State) : Nat := if s.su.begun then s.su.work.toNat + 1 else s.time.stroke.toNat

/-- Instances of this module that run work of a stroke: not away, or handed back from this stroke on (R438). -/
def State.worksOn (s : State) (n : Nat) : List (BitVec 16) := s.instNums.filter fun i => !s.twin.away.contains i || s.waitsToTake i n

/-- May the work stroke become n now: its predecessor's work is complete, or it is the first and its tables have come; its boundary has been? -/
def State.mayAdvance (s : State) : Bool :=
  let n := s.nextWork
  let first : Bool := (s.worksOn n).all fun i => s.su.next.any fun t => t.inst = i && t.stroke.toNat = n
  10 ≤ s.boot.step && s.running && s.time.ftSet && n ≤ s.time.stroke.toNat && (if s.su.begun then s.su.doneAt.isSome else first)

/-- An owner at the start of a work stroke (R63): its job stream goes on where it stands (R449). -/
def OwnerState.renew (o : OwnerState) (now : Word64) (ended : List (BitVec 16)) : OwnerState :=
  let job : StreamPos := { o.job with issued := 0, heldTo := none, headAt := if o.parked && o.job.headAt.isSome then some now else o.job.headAt }
  { o with serve := .reset, stopped := [], ended := ended, parked := false, grant := false, job := job }

/-- Does an instance run nothing in a stroke though no table says so: it has left this module, or its sessions here are all suspended? -/
def State.idleIn (s : State) (i : BitVec 16) : Bool :=
  let xs := s.instSessions i
  !(s.worksOn s.su.work.toNat).contains i || (!xs.isEmpty && xs.all fun x => x.suspended.isSome)

/-- The work stroke becomes n: its tables are released, without the rows of sessions that wait for their restore, and the owners begin. -/
def State.advanceWork (s : State) : State :=
  let n := BitVec.ofNat 48 s.nextWork
  let s := s.dropRows (s.su.restore.flatMap s.hitBy)
  let catchup := s.su.catchAt.contains n.toNat
  let mine := s.su.next.filter fun t => t.stroke = n
  let dead := s.su.doomed.filter fun q => q.2 = n
  let su : SuState :=
    { s.su with work := n, begun := true, doneAt := none, catchup := catchup, lagFree := false, failed := [], tables := mine,
                doneWork := if s.su.begun then s.su.doneWork else n - 1#48,
                next := s.su.next.filter (fun t => n.toNat < t.stroke.toNat), written := s.su.written.filter (fun q => n.toNat ≤ q.2.toNat + 1),
                doomed := s.su.doomed.filter fun q => n.toNat < q.2.toNat }
  let s : State := { s with su := su }
  let s := if catchup then s.count (modCtr 0x0003 0) else s
  let idle := s.instNums.filter fun i => (s.table i).isNone && s.idleIn i
  let s := s.mapParts fun x => ({ x with issued := [] }).mapOwners fun o => o.renew s.ftOr0 idle
  let s := (List.range s.label.variant.parts).foldl State.releaseEarly s
  dead.foldl (fun s q => s.failHere q.1 q.2) (serveAll s)

/-- WORK_STROKE_ADVANCE (R63): at S(n) + 20 µs, or once the work of stroke n − 1 is complete, whichever is later. -/
def execWorkStrokeAdvance (s : State) : Res := .next (if s.mayAdvance then (s.reach (s.computeAt s.nextWork)).advanceWork else s)

/-- Is the job's stream of an owner over for the work stroke: none runs, it waits for a release, or it is parked (R449)? -/
def State.jobOver (s : State) (o : OwnerState) : Bool := s.job.phase ≠ .running || o.job.headAt.isNone || o.parked

/-- Is the work of the work stroke complete on a partition: in reset it has none, else every stream has ended and every command completed? -/
def State.partDone (s : State) (p : Nat) : Bool :=
  let x := s.part p
  x.reset.isSome || (s.streamsEnded p && x.allCmds.isEmpty && allOwners.all fun o => s.jobOver (x.owner o))

/-- Layer-1 captures of a stroke complete; what a failed stroke captured is not committed (R436, R466). -/
def State.closeCaptures (s : State) (n : Stroke) : State :=
  let lost (c : Capture) : Bool := c.inst ≠ 0xFFFF#16 && c.point = n && s.su.failed.contains c.inst
  let shut (c : Capture) : Capture := if c.stroke = n then { c with closed := true } else c
  (s.modTwin fun t => { t with captures := (t.captures.filter fun c => !lost c).map shut }).pruneProtect


/-- Sessions whose restore has run are under exclusion 0x5 no longer (Table 13.11). -/
def State.endRestores (s : State) (n : Stroke) : State :=
  (s.sess.list.filter fun x => x.replay.isNone && x.suspended.isNone && x.ranIn n && !s.su.failed.contains x.inst).foldl (fun s x =>
    s.endExcl 5 (some x.key)) s

/-- STROKE_WORK_COMPLETE (R55): C(n) is now, and the lag is its distance behind D(n). -/
def execStrokeWorkComplete (s : State) : Res :=
  .next (if !s.su.begun || s.su.doneAt.isSome || !(List.range s.label.variant.parts).all s.partDone then s
    else
      let n := s.su.work
      let lag := s.time.ft.toNat - s.dueAt n.toNat
      let s := { s with su := { s.su with doneAt := some s.time.ft, doneWork := n, lag := lag } }
      let s := s.level (modCtr 0x0002 0) ((lag + 999) / 1000)
      let s := (s.sendDrained.endRestores n).closeCaptures n
      s.instNums.foldl (commitInst n) s)

/-- PROOF_WINDOW_START (R75): FT reaches the proof window of the work stroke; the owners that a WAITPHASE held until then issue again. -/
def execProofWindowStart (s : State) : Res :=
  .next (if !s.su.begun || !s.time.ftSet then s
    else
      let s := s.reach (s.proofAt s.su.work.toNat)
      let free (q : StreamPos) : StreamPos := if q.heldTo.any (fun t => t.toNat ≤ s.time.ft.toNat) then { q with heldTo := none } else q
      s.mapParts fun x => x.mapOwners fun o => { o with serve := free o.serve, job := free o.job })

/-! ## The due point and the slack window (R49, R56, R57, R231, R477) -/

/-- Work incomplete at D(n): stroke n + 1 catches up, and stroke n has ended with lag (R56). -/
def State.dueLate (s : State) (n : Nat) : State :=
  { s with su := { s.su with catchRun := if s.su.catchAt.contains n then s.su.catchRun + 1 else 0, catchAt := setInsert s.su.catchAt (n + 1),
                             lagged := setInsert s.su.lagged n, lagFree := false } }

/-- Work complete at D(n): the window is lag-free, and what lasts until lag is regained ends (R57, Table 13.11). -/
def State.dueClear (s : State) : State :=
  let s := { s with su := { s.su with lagFree := true, catchRun := 0, overrun := false } }
  let s := s.endExcl 1 none
  let s := if s.pwr.warning then s else s.endCode 4
  if s.stackHot then s else s.endExcl 3 none

/-- DUE_POINT: D(n) of the current stroke. -/
def execDuePoint (s : State) : Res :=
  .next (if !s.time.ftSet || !s.running || !s.su.begun then s
    else
      let n := s.time.stroke.toNat
      let s := s.reach (s.dueAt n)
      if s.su.doneWork.toNat < n then s.dueLate n else s.dueClear)

/-- The outcome of one pending self-test. -/
def runTest (s : State) (t : SelfTest) : State :=
  let p := t.part.toNat
  let e := t.engine.toNat
  if !(s.part p).pendTests.contains e || (s.part p).reset.isSome then s
  else if t.pass then s.testPassed p e
  else s.testFailed p e

/-- The subchannel whose turn it is in the rotation of R231: the next in service from where the last window ended. -/
def State.nextRetrain (s : State) : Option Nat :=
  let n := 48 * s.label.variant.stacks
  ((List.range n).map fun i => (s.mem.retrainAt + i) % n).find? fun g =>
    let o := subOwner s.label.variant g
    !((s.part o.1).mapOuts.any fun m => m.sub = o.2 && m.out)

/-- A subchannel retrained, in its turn. -/
def retrainSub (s : State) (g : BitVec 10) : State :=
  if s.nextRetrain = some g.toNat then
    let s := s.modSub g.toNat fun x => { x with retrained := s.time.mono }
    { s with mem := { s.mem with retrainAt := g.toNat + 1 } }
  else s

/-- SLACK_SELF_TEST: in the lag-free window of the current stroke, before its close, pending self-tests run, and up to 16 subchannels are retrained. -/
def execSlackSelfTest (tests : List SelfTest) (retrained : List (BitVec 10)) (s : State) : Res :=
  .next (if !s.su.lagFree || s.closeAt s.time.stroke.toNat ≤ s.time.ft.toNat then s
    else (retrained.take 16).foldl retrainSub (tests.foldl runTest s))

/-! ## The close (R58, R84, R423) -/

/-- The lag report of stroke n (R58): its lag, or what it is so far, incomplete. -/
def State.lagReport (s : State) (n : Nat) : LagReport :=
  let done : Bool := n ≤ s.su.doneWork.toNat
  let ns := if done then s.su.lag else s.time.ft.toNat - s.dueAt n
  { stroke := BitVec.ofNat 48 n, lag := (ns + 999) / 1000, incomplete := !done, stretch := s.stretchOf n, overrun := s.su.overrun }

/-- Lag not regained within the catch-up horizon: the alarm, the overrun mark and its exclusion (R58). -/
def State.markOverrun (s : State) : State :=
  if s.domain.horizon.toNat ≤ s.su.catchRun && !s.su.overrun && s.su.catchRun ≠ 0 then
    ({ s with su := { s.su with overrun := true } }.alarm (devNotice 0x01 0x40 0x33 s.su.catchRun)).beginExcl 1 none
  else s

/-- A lag report reaches the AE: the manager's own at once, any other's by VC3. -/
def State.reportLag (s : State) (r : LagReport) : State :=
  let s := s.tell (.lag r)
  if s.isManager then { s with ae := { s.ae with dirty := true } } else s

/-- The STROKE record of a close (Table 21.5). -/
def strokeRec (s : State) (n : Nat) (r : LagReport) : TraceRec :=
  let rows := ((s.su.tables ++ s.su.next).filter fun t => t.stroke.toNat = n).map fun t => t.rows.length
  { ft := s.time.ft, stroke := BitVec.ofNat 48 n, kind := 3#8, die := 0x40#8, engine := 0x33#8, layer := 0xFFFF#16, operator := 0xFFFF#16,
    payload := BitVec.ofNat 80 (min r.lag 0xFFFFFFFF * 2 ^ 48 + (s.su.catchAt.contains n).toNat * 2 ^ 47 + s.su.lagFree.toNat * 2 ^ 46 +
      rows.sum % 65536 * 2 ^ 30 + r.incomplete.toNat * 2 ^ 29) }

/-- STROKE_CLOSE: the close of the current stroke: session records, lag, the next batch tables, the manager's broadcasts. -/
def execStrokeClose (s : State) : Res :=
  .next (if !s.time.ftSet || !s.running then s
    else
      let n := s.time.stroke.toNat
      let s := (s.reach (s.closeAt n)).writeRecords (BitVec.ofNat 48 n)
      let s := if s.su.begun then
          let s := s.markOverrun
          s.reportLag (s.lagReport n)
        else s
      let s := if 10 ≤ s.boot.step then s.buildTables (n + 1) else s
      let s := if s.isManager then (s.closeBroadcast (n + 1)).broadcastDeclared.broadcastTakeovers else s
      let s := if 0 < s.stretchOf n then s.sagCheck else s
      let s := if s.su.begun then s.trace (strokeRec s n (s.lagReport n)) else s
      { s with su := { s.su with lagFree := false } })

/-! ## Batch tables (R64, R82) -/

/-- Bytes of a table's header (Table 3.9). -/
def headerBytes (t : BatchTable) : List Byte :=
  let pre := t.rows.filter isPrefill
  recBytes 64 [(t.stroke.toNat, 464), (t.inst.toNat, 448), (t.rows.length, 432), (t.rows.length - pre.length, 416), (pre.length, 400),
    (t.catchup.toNat, 399), ((pre.map fun r => r.chunk.toNat).sum, 352)]

/-- Bytes of a row (Table 3.10). -/
def rowBytes (r : BatchRow) : List Byte :=
  recBytes 64 [(r.seed.toNat, 448), (r.prompt.toNat, 392), (r.dueStroke.toNat, 336), (r.staging.toNat, 264), (r.cclass.toNat, 256),
    (r.pageCount.toNat, 224), (r.staged.toNat, 208), (r.ring.toNat, 192), (r.pageList.toNat, 136), (r.drafts.toNat, 128), (r.outIndex.toNat, 96),
    (r.chunk.toNat, 80), (r.stage.toNat, 72), (r.pageLog2.toNat, 68), (r.kvRate.toNat, 66), (r.ringMode.toNat, 65), (r.handle.toNat, 32),
    (r.position.toNat, 0)]

/-- Scratchpad offset of an instance's batch areas in a partition: its place among the instances of the module (R179). -/
def State.batchAreas (s : State) (p : Nat) (inst : BitVec 16) : Option Nat :=
  (s.scratch p).bind fun r => ((r.batchBase.zip s.instNums).find? fun b => b.2 = inst).map (·.1.toNat)

/-- A table written into its batch area of every partition that has one; a partition in reset takes none (R182). -/
def State.writeTable (s : State) (t : BatchTable) : State :=
  let size := ((s.instRec t.inst).map (·.areaBytes)).getD 0
  let bytes := headerBytes t ++ t.rows.flatMap rowBytes
  let s := (List.range s.label.variant.parts).foldl (fun s p =>
    match s.batchAreas p t.inst with
    | some b => s.modPart p fun x => if x.reset.isSome then x else x.spWrite (b + t.stroke.toNat % 2 * size) bytes
    | none => s) s
  { s with su := { s.su with written := s.su.written ++ [(t.inst, t.stroke)] } }

/-- BATCH_TABLE_WRITE (R82): the next table of an instance that the SU still holds, once the work two strokes before it is complete. -/
def execBatchTableWrite (inst : BitVec 16) (s : State) : Res :=
  .next (match (s.su.tables ++ s.su.next).find? fun t => t.inst = inst && !s.su.written.contains (t.inst, t.stroke) with
    | some t => if !s.su.begun || t.stroke.toNat ≤ s.su.doneWork.toNat + 2 then s.writeTable t else s
    | none => s)

/-- BATCH_TABLE_RECEIVE (R64): the lead's table of an instance that runs here; where the work stroke waits for it, its commands begin. -/
def execBatchTableReceive (t : BatchTable) (s : State) : Res :=
  let known := (s.su.tables ++ s.su.next).any fun u => u.inst = t.inst && u.stroke = t.stroke
  .next (if known || !s.instNums.contains t.inst || s.ledInsts.contains t.inst then s
    else (((s.writeRecords (t.stroke - 1#48)).keepTable t).advanceRows t).admitLate)

end Sys2Proof.Machine
end

