-- ==== Sys2Proof/Machine/Dispatch.lean ====
section
/-! DEFINITION. Dispatch.lean: the meaning of every command, one arm per row of spec/opcode_table.json. -/
namespace Sys2Proof.Machine

def exec (i : Instr) (s : State) : Host.Outcome State Fault Refusal :=
  match i with
  | .nop iss => Sys2Proof.Machine.execNop iss s
  | .mload iss o => Sys2Proof.Machine.execMload iss o s
  | .mmul iss o => Sys2Proof.Machine.execMmul iss o s
  | .mdrain iss o => Sys2Proof.Machine.execMdrain iss o s
  | .fadd iss o => Sys2Proof.Machine.execFadd iss o s
  | .fsub iss o => Sys2Proof.Machine.execFsub iss o s
  | .fmul iss o => Sys2Proof.Machine.execFmul iss o s
  | .ffma iss o => Sys2Proof.Machine.execFfma iss o s
  | .fdiv iss o => Sys2Proof.Machine.execFdiv iss o s
  | .fmin iss o => Sys2Proof.Machine.execFmin iss o s
  | .fmax iss o => Sys2Proof.Machine.execFmax iss o s
  | .fminnum iss o => Sys2Proof.Machine.execFminnum iss o s
  | .fmaxnum iss o => Sys2Proof.Machine.execFmaxnum iss o s
  | .fcmpeq iss o => Sys2Proof.Machine.execFcmpeq iss o s
  | .fcmpne iss o => Sys2Proof.Machine.execFcmpne iss o s
  | .fcmplt iss o => Sys2Proof.Machine.execFcmplt iss o s
  | .fcmple iss o => Sys2Proof.Machine.execFcmple iss o s
  | .fcmpgt iss o => Sys2Proof.Machine.execFcmpgt iss o s
  | .fcmpge iss o => Sys2Proof.Machine.execFcmpge iss o s
  | .fabs iss o => Sys2Proof.Machine.execFabs iss o s
  | .fneg iss o => Sys2Proof.Machine.execFneg iss o s
  | .fsqrt iss o => Sys2Proof.Machine.execFsqrt iss o s
  | .frsqrt iss o => Sys2Proof.Machine.execFrsqrt iss o s
  | .frcp iss o => Sys2Proof.Machine.execFrcp iss o s
  | .fexp iss o => Sys2Proof.Machine.execFexp iss o s
  | .fexp2 iss o => Sys2Proof.Machine.execFexp2 iss o s
  | .flog iss o => Sys2Proof.Machine.execFlog iss o s
  | .flog2 iss o => Sys2Proof.Machine.execFlog2 iss o s
  | .ftanh iss o => Sys2Proof.Machine.execFtanh iss o s
  | .fsigm iss o => Sys2Proof.Machine.execFsigm iss o s
  | .fsilu iss o => Sys2Proof.Machine.execFsilu iss o s
  | .ffloor iss o => Sys2Proof.Machine.execFfloor iss o s
  | .fround iss o => Sys2Proof.Machine.execFround iss o s
  | .iadd iss o => Sys2Proof.Machine.execIadd iss o s
  | .iadds iss o => Sys2Proof.Machine.execIadds iss o s
  | .isub iss o => Sys2Proof.Machine.execIsub iss o s
  | .isubs iss o => Sys2Proof.Machine.execIsubs iss o s
  | .imul iss o => Sys2Proof.Machine.execImul iss o s
  | .imuls iss o => Sys2Proof.Machine.execImuls iss o s
  | .iand iss o => Sys2Proof.Machine.execIand iss o s
  | .ior iss o => Sys2Proof.Machine.execIor iss o s
  | .ixor iss o => Sys2Proof.Machine.execIxor iss o s
  | .inot iss o => Sys2Proof.Machine.execInot iss o s
  | .ishl iss o => Sys2Proof.Machine.execIshl iss o s
  | .ishr iss o => Sys2Proof.Machine.execIshr iss o s
  | .isra iss o => Sys2Proof.Machine.execIsra iss o s
  | .imin iss o => Sys2Proof.Machine.execImin iss o s
  | .imax iss o => Sys2Proof.Machine.execImax iss o s
  | .umin iss o => Sys2Proof.Machine.execUmin iss o s
  | .umax iss o => Sys2Proof.Machine.execUmax iss o s
  | .icmpeq iss o => Sys2Proof.Machine.execIcmpeq iss o s
  | .icmplt iss o => Sys2Proof.Machine.execIcmplt iss o s
  | .ucmplt iss o => Sys2Proof.Machine.execUcmplt iss o s
  | .copy iss o => Sys2Proof.Machine.execCopy iss o s
  | .sel iss o => Sys2Proof.Machine.execSel iss o s
  | .iota iss o => Sys2Proof.Machine.execIota iss o s
  | .gather iss o => Sys2Proof.Machine.execGather iss o s
  | .fill iss o => Sys2Proof.Machine.execFill iss o s
  | .fscan iss o => Sys2Proof.Machine.execFscan iss o s
  | .summ iss o => Sys2Proof.Machine.execSumm iss o s
  | .summi iss o => Sys2Proof.Machine.execSummi iss o s
  | .mld iss o => Sys2Proof.Machine.execMld iss o s
  | .cvt iss o => Sys2Proof.Machine.execCvt iss o s
  | .topk iss o => Sys2Proof.Machine.execTopk iss o s
  | .rand iss o => Sys2Proof.Machine.execRand iss o s
  | .randu iss o => Sys2Proof.Machine.execRandu iss o s
  | .statrd iss o => Sys2Proof.Machine.execStatrd iss o s
  | .dcopy iss o => Sys2Proof.Machine.execDcopy iss o s
  | .dwalk iss o => Sys2Proof.Machine.execDwalk iss o s
  | .dstage iss o => Sys2Proof.Machine.execDstage iss o s
  | .dseal iss o => Sys2Proof.Machine.execDseal iss o s
  | .sketchUpkeep iss o => Sys2Proof.Machine.execSketchUpkeep iss o s
  | .add32 iss o => Sys2Proof.Machine.execAdd32 iss o s
  | .add64 iss o => Sys2Proof.Machine.execAdd64 iss o s
  | .smin32 iss o => Sys2Proof.Machine.execSmin32 iss o s
  | .smin64 iss o => Sys2Proof.Machine.execSmin64 iss o s
  | .smax32 iss o => Sys2Proof.Machine.execSmax32 iss o s
  | .smax64 iss o => Sys2Proof.Machine.execSmax64 iss o s
  | .umin32 iss o => Sys2Proof.Machine.execUmin32 iss o s
  | .umin64 iss o => Sys2Proof.Machine.execUmin64 iss o s
  | .umax32 iss o => Sys2Proof.Machine.execUmax32 iss o s
  | .umax64 iss o => Sys2Proof.Machine.execUmax64 iss o s
  | .swap32 iss o => Sys2Proof.Machine.execSwap32 iss o s
  | .swap64 iss o => Sys2Proof.Machine.execSwap64 iss o s
  | .cas32 iss o => Sys2Proof.Machine.execCas32 iss o s
  | .cas64 iss o => Sys2Proof.Machine.execCas64 iss o s
  | .fadd32 iss o => Sys2Proof.Machine.execFadd32 iss o s
  | .bfadd16 iss o => Sys2Proof.Machine.execBfadd16 iss o s
  | .dsignal iss o => Sys2Proof.Machine.execDsignal iss o s
  | .dproofRange iss o => Sys2Proof.Machine.execDproofRange iss o s
  | .dproofRow iss o => Sys2Proof.Machine.execDproofRow iss o s
  | .demit iss o => Sys2Proof.Machine.execDemit iss o s
  | .cinv iss o => Sys2Proof.Machine.execCinv iss o s
  | .brs iss o => Sys2Proof.Machine.execBrs iss o s
  | .jump iss o => Sys2Proof.Machine.execJump iss o s
  | .rowloop iss o => Sys2Proof.Machine.execRowloop iss o s
  | .waitphase iss o => Sys2Proof.Machine.execWaitphase iss o s
  | .streamEnd iss o => Sys2Proof.Machine.execStreamEnd iss o s
  | .invalidOpcode word => Sys2Proof.Machine.execInvalidOpcode word s
  | .commandCompletion part engine c => Sys2Proof.Machine.execCommandCompletion part engine c s
  | .commandTimeout iss => Sys2Proof.Machine.execCommandTimeout iss s
  | .streamLimitExceeded iss => Sys2Proof.Machine.execStreamLimitExceeded iss s
  | .signalApply part sig => Sys2Proof.Machine.execSignalApply part sig s
  | .arbitrationStarvation part bank side reqs => Sys2Proof.Machine.execArbitrationStarvation part bank side reqs s
  | .scratchpadCorrectionWriteback part w => Sys2Proof.Machine.execScratchpadCorrectionWriteback part w s
  | .strokeBoundary => Sys2Proof.Machine.execStrokeBoundary s
  | .workStrokeAdvance => Sys2Proof.Machine.execWorkStrokeAdvance s
  | .strokeWorkComplete => Sys2Proof.Machine.execStrokeWorkComplete s
  | .duePoint => Sys2Proof.Machine.execDuePoint s
  | .slackSelfTest tests retrained => Sys2Proof.Machine.execSlackSelfTest tests retrained s
  | .strokeClose => Sys2Proof.Machine.execStrokeClose s
  | .batchTableWrite inst => Sys2Proof.Machine.execBatchTableWrite inst s
  | .batchTableReceive t => Sys2Proof.Machine.execBatchTableReceive t s
  | .slotStart e => Sys2Proof.Machine.execSlotStart e s
  | .lateTransfer plan => Sys2Proof.Machine.execLateTransfer plan s
  | .class5Issue iss => Sys2Proof.Machine.execClass5Issue iss s
  | .jobStreamPark part owner => Sys2Proof.Machine.execJobStreamPark part owner s
  | .ptpSync m => Sys2Proof.Machine.execPtpSync m s
  | .ptpAnnounce m => Sys2Proof.Machine.execPtpAnnounce m s
  | .ptpDelayResponse m => Sys2Proof.Machine.execPtpDelayResponse m s
  | .ptpLossTimeout => Sys2Proof.Machine.execPtpLossTimeout s
  | .suspectTimeout => Sys2Proof.Machine.execSuspectTimeout s
  | .timeMessageSend => Sys2Proof.Machine.execTimeMessageSend s
  | .time m => Sys2Proof.Machine.execTime m s
  | .delayExchangeSend => Sys2Proof.Machine.execDelayExchangeSend s
  | .delay port m => Sys2Proof.Machine.execDelay port m s
  | .timeMessageLoss => Sys2Proof.Machine.execTimeMessageLoss s
  | .offPlanNotice module stroke => Sys2Proof.Machine.execOffPlanNotice module stroke s
  | .twinState t => Sys2Proof.Machine.execTwinState t s
  | .laneCheck g reads => Sys2Proof.Machine.execLaneCheck g reads s
  | .refresh g => Sys2Proof.Machine.execRefresh g s
  | .stackTemperatureRead temps => Sys2Proof.Machine.execStackTemperatureRead temps s
  | .retrainOverdue g => Sys2Proof.Machine.execRetrainOverdue g s
  | .evacuationCopy c => Sys2Proof.Machine.execEvacuationCopy c s
  | .evacuationGranuleAck part => Sys2Proof.Machine.execEvacuationGranuleAck part s
  | .patrolScrub frame granule noise => Sys2Proof.Machine.execPatrolScrub frame granule noise s
  | .fenceLift block => Sys2Proof.Machine.execFenceLift block s
  | .uncorrectableStrokeFail part owner inst => Sys2Proof.Machine.execUncorrectableStrokeFail part owner inst s
  | .rd r noise => Sys2Proof.Machine.execRd r noise s
  | .wr r => Sys2Proof.Machine.execWr r s
  | .mwr r noise => Sys2Proof.Machine.execMwr r noise s
  | .atom r noise => Sys2Proof.Machine.execAtom r noise s
  | .sig r => Sys2Proof.Machine.execSig r s
  | .resp r => Sys2Proof.Machine.execResp r s
  | .plan r => Sys2Proof.Machine.execPlan r s
  | .late r => Sys2Proof.Machine.execLate r s
  | .reservedPacketType r => Sys2Proof.Machine.execReservedPacketType r s
  | .packetForward r => Sys2Proof.Machine.execPacketForward r s
  | .packetAgeExpiry ld p => Sys2Proof.Machine.execPacketAgeExpiry ld p s
  | .waitStoreRelease ld => Sys2Proof.Machine.execWaitStoreRelease ld s
  | .idle port => Sys2Proof.Machine.execIdle port s
  | .controlAck port lseq => Sys2Proof.Machine.execControlAck port lseq s
  | .controlNack port lseq => Sys2Proof.Machine.execControlNack port lseq s
  | .credit port vc hop count => Sys2Proof.Machine.execCredit port vc hop count s
  | .slotEnd port => Sys2Proof.Machine.execSlotEnd port s
  | .retrain port => Sys2Proof.Machine.execRetrain port s
  | .keyswap port => Sys2Proof.Machine.execKeyswap port s
  | .linkCrcFailure port tagFailed => Sys2Proof.Machine.execLinkCrcFailure port tagFailed s
  | .replayLimit port => Sys2Proof.Machine.execReplayLimit port s
  | .portTraining port obs => Sys2Proof.Machine.execPortTraining port obs s
  | .trainingStateTimeout port => Sys2Proof.Machine.execTrainingStateTimeout port s
  | .trainingRetryTimer port obs => Sys2Proof.Machine.execTrainingRetryTimer port obs s
  | .laneDegraded port lane => Sys2Proof.Machine.execLaneDegraded port lane s
  | .lossOfLock port => Sys2Proof.Machine.execLossOfLock port s
  | .portStateChange c => Sys2Proof.Machine.execPortStateChange c s
  | .authFailureLimit port => Sys2Proof.Machine.execAuthFailureLimit port s
  | .linkRekey port => Sys2Proof.Machine.execLinkRekey port s
  | .linkOffer port r => Sys2Proof.Machine.execLinkOffer port r s
  | .linkAnswer port r => Sys2Proof.Machine.execLinkAnswer port r s
  | .linkConfirm port sig => Sys2Proof.Machine.execLinkConfirm port sig s
  | .directoryUpdateBatch seq us => Sys2Proof.Machine.execDirectoryUpdateBatch seq us s
  | .directoryBatchResend => Sys2Proof.Machine.execDirectoryBatchResend s
  | .linkStateBatch seq stroke cs => Sys2Proof.Machine.execLinkStateBatch seq stroke cs s
  | .migrationTransferComplete block => Sys2Proof.Machine.execMigrationTransferComplete block s
  | .freezeQueueReceive block entries fenced prot => Sys2Proof.Machine.execFreezeQueueReceive block entries fenced prot s
  | .frameFree block => Sys2Proof.Machine.execFrameFree block s
  | .freezeQueueSpace => Sys2Proof.Machine.execFreezeQueueSpace s
  | .touchBufferSpace => Sys2Proof.Machine.execTouchBufferSpace s
  | .codebookFetchComplete part addr => Sys2Proof.Machine.execCodebookFetchComplete part addr s
  | .sketchGapClosed port slot layer head => Sys2Proof.Machine.execSketchGapClosed port slot layer head s
  | .ethernetFrame f => Sys2Proof.Machine.execEthernetFrame f s
  | .helloC h => Sys2Proof.Machine.execHelloC h s
  | .finish f => Sys2Proof.Machine.execFinish f s
  | .handshakeTimeout conn => Sys2Proof.Machine.execHandshakeTimeout conn s
  | .data p => Sys2Proof.Machine.execData p s
  | .ack p => Sys2Proof.Machine.execAck p s
  | .bye p => Sys2Proof.Machine.execBye p s
  | .reservedAstPacket h => Sys2Proof.Machine.execReservedAstPacket h s
  | .resumePacket p => Sys2Proof.Machine.execResumePacket p s
  | .ackDelay ep => Sys2Proof.Machine.execAckDelay ep s
  | .retransmitTimeout ep seq => Sys2Proof.Machine.execRetransmitTimeout ep seq s
  | .pacerSend ep => Sys2Proof.Machine.execPacerSend ep s
  | .openMsg ep m => Sys2Proof.Machine.execOpenMsg ep m s
  | .admissionQueueEnqueue f => Sys2Proof.Machine.execAdmissionQueueEnqueue f s
  | .admissionDecision => Sys2Proof.Machine.execAdmissionDecision s
  | .decisionRecordAck id => Sys2Proof.Machine.execDecisionRecordAck id s
  | .allocationGrant r => Sys2Proof.Machine.execAllocationGrant r s
  | .decisionReceive d => Sys2Proof.Machine.execDecisionReceive d s
  | .prompt ep m => Sys2Proof.Machine.execPrompt ep m s
  | .promptDeadline slot => Sys2Proof.Machine.execPromptDeadline slot s
  | .tokensSend slot => Sys2Proof.Machine.execTokensSend slot s
  | .close ep m => Sys2Proof.Machine.execClose ep m s
  | .queryStatus ep m => Sys2Proof.Machine.execQueryStatus ep m s
  | .queryResend ep m => Sys2Proof.Machine.execQueryResend ep m s
  | .queryEndpoint ep m => Sys2Proof.Machine.execQueryEndpoint ep m s
  | .observeCounters ep m => Sys2Proof.Machine.execObserveCounters ep m s
  | .observeAttestation ep m => Sys2Proof.Machine.execObserveAttestation ep m s
  | .observeAlarms ep m => Sys2Proof.Machine.execObserveAlarms ep m s
  | .dump ep m => Sys2Proof.Machine.execDump ep m s
  | .dumpCapture => Sys2Proof.Machine.execDumpCapture s
  | .snapshot ep m => Sys2Proof.Machine.execSnapshot ep m s
  | .reservedMessageType ep m => Sys2Proof.Machine.execReservedMessageType ep m s
  | .storeData d => Sys2Proof.Machine.execStoreData d s
  | .storeDone name status => Sys2Proof.Machine.execStoreDone name status s
  | .mainPowerGood => Sys2Proof.Machine.execMainPowerGood s
  | .memoryTrainingDone r => Sys2Proof.Machine.execMemoryTrainingDone r s
  | .join j => Sys2Proof.Machine.execJoin j s
  | .joined accepted => Sys2Proof.Machine.execJoined accepted s
  | .directoryForm => Sys2Proof.Machine.execDirectoryForm s
  | .objectLoad => Sys2Proof.Machine.execObjectLoad s
  | .loaded module => Sys2Proof.Machine.execLoaded module s
  | .validationEntryEnd inst => Sys2Proof.Machine.execValidationEntryEnd inst s
  | .serving => Sys2Proof.Machine.execServing s
  | .startTimeout => Sys2Proof.Machine.execStartTimeout s
  | .pair p => Sys2Proof.Machine.execPair p s
  | .pairAck => Sys2Proof.Machine.execPairAck s
  | .pairRetry => Sys2Proof.Machine.execPairRetry s
  | .twinData stroke inst addr gs => Sys2Proof.Machine.execTwinData stroke inst addr gs s
  | .twinRecord stroke inst rs => Sys2Proof.Machine.execTwinRecord stroke inst rs s
  | .twinToken handle e => Sys2Proof.Machine.execTwinToken handle e s
  | .commit c => Sys2Proof.Machine.execCommit c s
  | .committed c => Sys2Proof.Machine.execCommitted c s
  | .relay r => Sys2Proof.Machine.execRelay r s
  | .handover o h => Sys2Proof.Machine.execHandover o h s
  | .twinLinkDown => Sys2Proof.Machine.execTwinLinkDown s
  | .proofWriter => Sys2Proof.Machine.execProofWriter s
  | .takeover t => Sys2Proof.Machine.execTakeover t s
  | .takeoverComplete insts => Sys2Proof.Machine.execTakeoverComplete insts s
  | .deputySuccession c => Sys2Proof.Machine.execDeputySuccession c s
  | .succession k by_ => Sys2Proof.Machine.execSuccession k by_ s
  | .suspendedRestore port slot src r => Sys2Proof.Machine.execSuspendedRestore port slot src r s
  | .restoreWaitExpiry slot => Sys2Proof.Machine.execRestoreWaitExpiry slot s
  | .detach => Sys2Proof.Machine.execDetach s
  | .jobStepRelease => Sys2Proof.Machine.execJobStepRelease s
  | .jobStepComplete => Sys2Proof.Machine.execJobStepComplete s
  | .jobProofCommit layer step => Sys2Proof.Machine.execJobProofCommit layer step s
  | .jobStop c => Sys2Proof.Machine.execJobStop c s
  | .jobResume => Sys2Proof.Machine.execJobResume s
  | .heartbeat part => Sys2Proof.Machine.execHeartbeat part s
  | .heartbeatLoss part => Sys2Proof.Machine.execHeartbeatLoss part s
  | .moduleBeat b => Sys2Proof.Machine.execModuleBeat b s
  | .moduleFailed module c => Sys2Proof.Machine.execModuleFailed module c s
  | .engineReset part engine => Sys2Proof.Machine.execEngineReset part engine s
  | .engineResetBound part engine => Sys2Proof.Machine.execEngineResetBound part engine s
  | .strokeFailed inst stroke own => Sys2Proof.Machine.execStrokeFailed inst stroke own s
  | .partitionReset part => Sys2Proof.Machine.execPartitionReset part s
  | .selfRefreshConfirm part confirmed => Sys2Proof.Machine.execSelfRefreshConfirm part confirmed s
  | .partitionResetBound part => Sys2Proof.Machine.execPartitionResetBound part s
  | .partitionReturn part => Sys2Proof.Machine.execPartitionReturn part s
  | .coldRewrite block data => Sys2Proof.Machine.execColdRewrite block data s
  | .deviceReset c => Sys2Proof.Machine.execDeviceReset c s
  | .selfTestRequest part engine => Sys2Proof.Machine.execSelfTestRequest part engine s
  | .selfTestFail part engine => Sys2Proof.Machine.execSelfTestFail part engine s
  | .drained port handle module => Sys2Proof.Machine.execDrained port handle module s
  | .tenantTeardown k => Sys2Proof.Machine.execTenantTeardown k s
  | .powerStageUpdate r => Sys2Proof.Machine.execPowerStageUpdate r s
  | .powerFloor => Sys2Proof.Machine.execPowerFloor s
  | .railDroop part us => Sys2Proof.Machine.execRailDroop part us s
  | .supplyWarning mv => Sys2Proof.Machine.execSupplyWarning mv s
  | .supplyWarningEnd mv => Sys2Proof.Machine.execSupplyWarningEnd mv s
  | .supplyReset => Sys2Proof.Machine.execSupplyReset s
  | .mainOvervoltage mv => Sys2Proof.Machine.execMainOvervoltage mv s
  | .dieTemperatureRead cd ld inlet => Sys2Proof.Machine.execDieTemperatureRead cd ld inlet s
  | .thermalTrip die => Sys2Proof.Machine.execThermalTrip die s
  | .tripLatchRelease => Sys2Proof.Machine.execTripLatchRelease s
  | .auxDomainStart addr => Sys2Proof.Machine.execAuxDomainStart addr s
  | .auxDomainStop => Sys2Proof.Machine.execAuxDomainStop s
  | .auxiliaryOutputFault o => Sys2Proof.Machine.execAuxiliaryOutputFault o s
  | .auxiliaryOutputRetry o faulty => Sys2Proof.Machine.execAuxiliaryOutputRetry o faulty s
  | .cfgReq claim => Sys2Proof.Machine.execCfgReq claim s
  | .detachRequest => Sys2Proof.Machine.execDetachRequest s
  | .status => Sys2Proof.Machine.execStatus s
  | .power => Sys2Proof.Machine.execPower s
  | .energy => Sys2Proof.Machine.execEnergy s
  | .mainV => Sys2Proof.Machine.execMainV s
  | .mainI => Sys2Proof.Machine.execMainI s
  | .auxV => Sys2Proof.Machine.execAuxV s
  | .auxI => Sys2Proof.Machine.execAuxI s
  | .inlet => Sys2Proof.Machine.execInlet s
  | .hotCd => Sys2Proof.Machine.execHotCd s
  | .hotMs => Sys2Proof.Machine.execHotMs s
  | .hotLd => Sys2Proof.Machine.execHotLd s
  | .stage => Sys2Proof.Machine.execStage s
  | .trip => Sys2Proof.Machine.execTrip s
  | .identity => Sys2Proof.Machine.execIdentity s
  | .label => Sys2Proof.Machine.execLabel s
  | .report offset => Sys2Proof.Machine.execReport offset s
  | .smbAlertResponse => Sys2Proof.Machine.execSmbAlertResponse s
  | .smbUnsupportedProtocol p code => Sys2Proof.Machine.execSmbUnsupportedProtocol p code s
  | .traceRecord r => Sys2Proof.Machine.execTraceRecord r s
  | .traceSample => Sys2Proof.Machine.execTraceSample s
  | .traceFrameSend => Sys2Proof.Machine.execTraceFrameSend s
  | .traceWindowFreeze => Sys2Proof.Machine.execTraceWindowFreeze s
  | .traceWindowRearm => Sys2Proof.Machine.execTraceWindowRearm s
  | .alarm n => Sys2Proof.Machine.execAlarm n s
  | .event n => Sys2Proof.Machine.execEvent n s
  | .hostPortLinkChange up => Sys2Proof.Machine.execHostPortLinkChange up s
  | .tracingPortLinkChange up => Sys2Proof.Machine.execTracingPortLinkChange up s
  | .proofWindowStart => Sys2Proof.Machine.execProofWindowStart s
  | .offPlanAck => Sys2Proof.Machine.execOffPlanAck s
  | .batchAcknowledgement module seq => Sys2Proof.Machine.execBatchAcknowledgement module seq s
  | .helloD h => Sys2Proof.Machine.execHelloD h s
  | .reject conn reason => Sys2Proof.Machine.execReject conn reason s

end Sys2Proof.Machine
end

