-- ==== Sys2Proof/Machine/Tick.lean ====
section
/-! DEFINITION. Tick.lean: what passes when no command waits: a nanosecond of the module's own clock, and of FT once it is set. -/
namespace Sys2Proof.Machine

/-- FT after one nanosecond of the own clock under the frequency correction: it moves by 0, 1 or 2 ns and never back (R34, R40). -/
def TimeState.advance (t : TimeState) : TimeState :=
  let acc := t.slewAcc + t.slewPpb
  if 1000000000 ≤ acc then { t with ft := t.ft + 2#64, slewAcc := acc - 1000000000 }
  else if acc ≤ -1000000000 then { t with slewAcc := acc + 1000000000 }
  else { t with ft := t.ft + 1#64, slewAcc := acc }

/-- One nanosecond passes (DESIGN CHOICE, notes/assumptions/3): every time-driven event of the spec is a command of its own. -/
def tick (s : State) : State :=
  let t := { s.time with mono := s.time.mono + 1#64 }
  { s with time := if t.ftSet then t.advance else t }

end Sys2Proof.Machine
end

