-- ==== Sys2Proof/Safety.lean ====
section
/-! DEFINITION. Safety.lean: the terms in which the statements speak of the machine: when a command may run, the units that it names,
what it leaves alone, and the invariants of a safe state. -/
namespace Sys2Proof.Machine

/-! ## Streams -/

/-- The position of the stream from which a command is issued. -/
def State.headOf (s : State) (i : Issue) : StreamPos := ((s.part i.part.toNat).owner i.owner).at i.prog

/-- Does the owner run the stream of an issue, and stands this command at its head, its wait condition met (R60, R61, R77)? -/
def State.mayRetire (s : State) (i : Issue) (c : Option PlateCmd) : Prop :=
  i.part.toNat < s.label.variant.parts ∧ s.owns i = true ∧ s.atHead i c = true ∧ s.waitMet i.part.toNat i.hdr = true

/-- May the owner execute the command at the head of its stream (R61, R65, R77)? -/
def State.mayIssue (s : State) (i : Issue) (c : Option PlateCmd) : Prop :=
  s.mayRetire i c ∧ (s.headOf i).issued < s.domain.streamLimit.toNat

/-- The matrix commands of an issue (Table 3.3). -/
def matrixForms (i : Issue) (o : MatOps) : List (Instr × CmdKind) := [(.mload i o, .mload), (.mmul i o, .mmul), (.mdrain i o, .mdrain)]

/-- The vector commands of an issue (Table 6.4). -/
def vectorForms (i : Issue) (o : VecOps) : List (Instr × VOp) := [
  (.fadd i o, .fadd), (.fsub i o, .fsub), (.fmul i o, .fmul), (.ffma i o, .ffma), (.fdiv i o, .fdiv), (.fmin i o, .fmin),
  (.fmax i o, .fmax), (.fminnum i o, .fminnum), (.fmaxnum i o, .fmaxnum), (.fcmpeq i o, (.fcmp .eq)), (.fcmpne i o, (.fcmp .ne)),
  (.fcmplt i o, (.fcmp .lt)), (.fcmple i o, (.fcmp .le)), (.fcmpgt i o, (.fcmp .gt)), (.fcmpge i o, (.fcmp .ge)), (.fabs i o, .fabs),
  (.fneg i o, .fneg), (.fsqrt i o, .fsqrt), (.frsqrt i o, .frsqrt), (.frcp i o, .frcp), (.fexp i o, .fexp), (.fexp2 i o, .fexp2),
  (.flog i o, .flog), (.flog2 i o, .flog2), (.ftanh i o, .ftanh), (.fsigm i o, .fsigm), (.fsilu i o, .fsilu), (.ffloor i o, .ffloor),
  (.fround i o, .fround), (.iadd i o, .iadd), (.iadds i o, .iadds), (.isub i o, .isub), (.isubs i o, .isubs), (.imul i o, .imul),
  (.imuls i o, .imuls), (.iand i o, .iand), (.ior i o, .ior), (.ixor i o, .ixor), (.inot i o, .inot), (.ishl i o, .ishl),
  (.ishr i o, .ishr), (.isra i o, .isra), (.imin i o, .imin), (.imax i o, .imax), (.umin i o, .umin), (.umax i o, .umax),
  (.icmpeq i o, .icmpeq), (.icmplt i o, .icmplt), (.ucmplt i o, .ucmplt), (.copy i o, .copy), (.sel i o, .sel), (.iota i o, .iota),
  (.gather i o, .gather), (.fill i o, .fill), (.fscan i o, .fscan), (.summ i o, .summ), (.summi i o, .summi), (.mld i o, .mld),
  (.cvt i o, .cvt), (.topk i o, .topk), (.rand i o, .rand), (.randu i o, .randu), (.statrd i o, .statrd)]

/-- The commands of an issue to the DE and to the die cache (Table 3.3). -/
def dmaForms (i : Issue) (o : DeOps) : List (Instr × CmdKind) := [
  (.dcopy i o, .dcopy), (.dwalk i o, .dwalk), (.dstage i o, .dstage), (.dseal i o, .dseal), (.sketchUpkeep i o, .upkeep),
  (.add32 i o, .datom .add32), (.add64 i o, .datom .add64), (.smin32 i o, .datom .smin32), (.smin64 i o, .datom .smin64),
  (.smax32 i o, .datom .smax32), (.smax64 i o, .datom .smax64), (.umin32 i o, .datom .umin32), (.umin64 i o, .datom .umin64),
  (.umax32 i o, .datom .umax32), (.umax64 i o, .datom .umax64), (.swap32 i o, .datom .swap32), (.swap64 i o, .datom .swap64),
  (.cas32 i o, .datom .cas32), (.cas64 i o, .datom .cas64), (.fadd32 i o, .datom .fadd32), (.bfadd16 i o, .datom .bfadd16),
  (.dsignal i o, .dsignal), (.dproofRange i o, .dproofRange), (.dproofRow i o, .dproofRow), (.demit i o, .demit), (.cinv i o, .cinv)]

/-- The engine commands of an issue that take time, with their kinds and operands. -/
def engineForms (i : Issue) (om : MatOps) (ov : VecOps) (od : DeOps) : List (Instr × CmdKind × CmdArgs) :=
  (matrixForms i om).map (fun f => (f.1, f.2, .mat om)) ++ (vectorForms i ov).map (fun f => (f.1, .vop f.2, .vec ov)) ++
    (dmaForms i od).map (fun f => (f.1, f.2, .de od))

/-- The control commands of an issue, with their opcodes. -/
def controlForms (i : Issue) (o : CtlOps) : List (Instr × Nat) :=
  [(.brs i o, 0x40), (.jump i o, 0x41), (.rowloop i o, 0x42), (.waitphase i o, 0x43), (.streamEnd i o, 0x44)]

/-- Does the unit that a command names (partition, port, subchannel, link die, auxiliary output) exist on this module (R17, R18, R20)? -/
def State.unitExists (s : State) (c : Instr) : Bool :=
  let part (p : BitVec 4) : Bool := p.toNat < s.label.variant.parts
  let port (p : BitVec 5) : Bool := p.toNat < s.label.variant.ports
  match c with
  | .fadd i _ | .fsub i _ | .fmul i _ | .ffma i _ | .fdiv i _ | .fmin i _ | .fmax i _ | .fminnum i _ | .fmaxnum i _ | .fcmpeq i _
  | .fcmpne i _ | .fcmplt i _ | .fcmple i _ | .fcmpgt i _ | .fcmpge i _ | .fabs i _ | .fneg i _ | .fsqrt i _ | .frsqrt i _ | .frcp i _
  | .fexp i _ | .fexp2 i _ | .flog i _ | .flog2 i _ | .ftanh i _ | .fsigm i _ | .fsilu i _ | .ffloor i _ | .fround i _ | .iadd i _
  | .iadds i _ | .isub i _ | .isubs i _ | .imul i _ | .imuls i _ | .iand i _ | .ior i _ | .ixor i _ | .inot i _ | .ishl i _ | .ishr i _
  | .isra i _ | .imin i _ | .imax i _ | .umin i _ | .umax i _ | .icmpeq i _ | .icmplt i _ | .ucmplt i _ | .copy i _ | .sel i _ | .iota i _
  | .gather i _ | .fill i _ | .fscan i _ | .summ i _ | .summi i _ | .mld i _ | .cvt i _ | .topk i _ | .rand i _ | .randu i _ | .statrd i _
  | .dcopy i _ | .dwalk i _ | .dstage i _ | .dseal i _ | .sketchUpkeep i _ | .add32 i _ | .add64 i _ | .smin32 i _ | .smin64 i _
  | .smax32 i _ | .smax64 i _ | .umin32 i _ | .umin64 i _ | .umax32 i _ | .umax64 i _ | .swap32 i _ | .swap64 i _ | .cas32 i _ | .cas64 i _
  | .fadd32 i _ | .bfadd16 i _ | .dsignal i _ | .dproofRange i _ | .dproofRow i _ | .demit i _ | .mload i _ | .mmul i _ | .mdrain i _
  | .cinv i _ | .brs i _ | .jump i _ | .rowloop i _ | .waitphase i _ | .streamEnd i _ | .nop i | .commandTimeout i | .streamLimitExceeded i
  | .class5Issue i => part i.part
  | .jobStreamPark p _ | .commandCompletion p _ _ | .signalApply p _ | .uncorrectableStrokeFail p _ _ | .arbitrationStarvation p _ _ _
  | .scratchpadCorrectionWriteback p _ | .codebookFetchComplete p _ | .evacuationCopy ⟨p, _⟩ | .evacuationGranuleAck p | .heartbeat p
  | .heartbeatLoss p | .engineReset p _ | .engineResetBound p _ | .partitionReset p | .selfRefreshConfirm p _ | .partitionResetBound p
  | .partitionReturn p | .selfTestRequest p _ | .selfTestFail p _ | .railDroop p _ => part p
  | .idle p | .controlAck p _ | .controlNack p _ | .credit p _ _ _ | .slotEnd p | .retrain p | .keyswap p | .linkCrcFailure p _ | .replayLimit p
  | .laneDegraded p _ | .lossOfLock p | .authFailureLimit p | .linkOffer p _ | .linkAnswer p _ | .linkConfirm p _ | .linkRekey p
  | .portTraining p _ | .trainingStateTimeout p | .trainingRetryTimer p _ | .delay p _ => port p
  | .time m => port m.port
  | .laneCheck g _ | .refresh g | .retrainOverdue g => g.toNat < 48 * s.label.variant.stacks
  | .waitStoreRelease d | .packetAgeExpiry d _ => d.toNat < s.label.variant.linkDies
  | .auxiliaryOutputFault o | .auxiliaryOutputRetry o _ => s.outExists o
  | .resp ⟨p, _, _⟩ => p.dst ≠ s.me || s.isCopyResp p || (p.dpart = 0xF#4 && s.label.variant.parts ≤ 15) || part p.dpart
  | _ => true

/-- A stream position after an executed command: moved by `f`, one more command counted, the next command at the head from now on. -/
def StreamPos.ran (x : StreamPos) (f : StreamPos → StreamPos) (now : BitVec 64) : StreamPos :=
  { f x with issued := (f x).issued + 1, headAt := some now, waiting := false, heldTo := none }

/-- Does a partition hold no engine command but those of a stream owner itself: every queue and every running list empty? -/
def Part.quiet (x : Part) : Prop :=
  x.reset = none ∧ x.engResets = [] ∧ x.de.running = [] ∧ x.de.sendq = [] ∧ x.dcache.queue = [] ∧ x.dcache.running = [] ∧
    ∀ k < 4, (x.cluster k).ve.queue = [] ∧ (x.cluster k).ve.running = [] ∧
      ∀ a < 4, ((x.cluster k).array a).queue = [] ∧ ((x.cluster k).array a).running = []

/-! ## Data -/

/-- The 32-bit element at a byte address of a memory (R6). -/
def wordAt (m : Memory) (a : Nat) : Word32 := BitVec.ofNat 32 (m.readNat a 4)

/-- Do two byte ranges have no byte in common? -/
def apart (a n b m : Nat) : Prop := a + n ≤ b ∨ b + m ≤ a

/-! ## Effects -/

/-- A cumulative counter raised by n, saturating at 64 bits (R524). -/
def State.bumped (s : State) (k : CtrKey) (n : Nat) : Nat := min (s.ctr k + n) 0xFFFFFFFFFFFFFFFF

/-- Does one memory hold `bytes` from `base`, and elsewhere what another holds? -/
def storedAt (old new : Memory) (base : Nat) (bytes : List Byte) : Prop :=
  new.readN base bytes.length = bytes ∧ ∀ a, a < base ∨ base + bytes.length ≤ a → new.read a = old.read a

/-- Is this module the plain home of a well-formed memory-space request, its block at `frame`, neither migrating, held nor fenced, with no
granule to be copied first, in flight to its patch location or with an error that no read has met, and no request before it (R220, R240, R252, R260,
R427, R471)? -/
def State.atHome (s : State) (p : Packet) (frame : Nat) : Prop :=
  p.dst = s.me ∧ s.boot.standing ≠ .detached ∧ s.boot.standing ≠ .heldVisible ∧ gaSpace p.addr = 0 ∧ gaLayoutOk p.addr = true ∧
    p.memOk = true ∧ (p.type ≠ 1#8 → s.useOf (gaBlock p.addr) ≠ 6) ∧ s.homeOf (gaBlock p.addr) = some (s.me, frame) ∧ s.migOf (gaBlock p.addr) = none ∧
    s.blockHeld (gaBlock p.addr) frame = false ∧ gaBlock p.addr ∉ s.mem.fenced ∧ s.waitsBefore p = false ∧
    (∀ k, k < p.span → s.copying frame (gaInBlock p.addr / 128 + k) = false ∧ s.errsAt frame (gaInBlock p.addr / 128 + k) = []) ∧
    (p.type ≠ 1#8 → ∀ k, k < p.span → s.mustTouch (p.addrAt k) = false) ∧ s.mem.freezeQ.length ≤ 32768 ∧ s.mem.touch.length ≤ 16384

/-- Address in this module's frames of the first byte that a request names. -/
def homeByte (p : Packet) (frame : Nat) : Nat := frame * blockBytes + gaInBlock p.addr

/-- Element n of a window field of a running VOP: from the pass register or from scratchpad (R147). -/
def elemOf (v : VRun) (f : WinField) (n : Nat) : Word32 :=
  match f with
  | .pass => ((v.pass.getD (List.replicate 1024 0#32))[n % 1024]?).getD 0#32
  | .at base => wordAt v.sp (base + 4 * n)

/-- Does a window field's run of `count` windows share no byte with `len` bytes from `base`? -/
def WinField.apart (f : WinField) (count base len : Nat) : Prop :=
  match f with
  | .pass => True
  | .at b => Machine.apart b (4096 * count) base len

/-- Operand B of a VOP at element n: the broadcast value, or the window's element (Table 6.2). -/
def operandB (v : VRun) (x : VArgs) (n : Nat) : Word32 := x.bcast.getD (elemOf v x.b n)

/-- Is an operation of Table 6.4 element-wise: one result element from the operands' elements of the same index? -/
def VOp.elementwise (op : VOp) : Bool :=
  match op with
  | .iota | .gather | .fill | .fscan | .summ | .summi | .mld | .cvt | .topk | .rand | .randu | .statrd => false
  | _ => true

/-- May the element-wise run write its DST at `d` without changing a source that it has yet to read? -/
def VArgs.clear (x : VArgs) (op : VOp) (d : Nat) : Prop :=
  (op.uses.1 = true → x.a.apart x.count d (4096 * x.count)) ∧
  (op.uses.2.1 = true → x.bcast = none → x.b.apart x.count d (4096 * x.count)) ∧
  (op.uses.2.2 = true → x.c.apart x.count d (4096 * x.count))

/-- The number that a magnitude code of an IEEE format stands for (R129). -/
def codeValue (f : Fmt) (c : Nat) : ℚ := ((f.magOf c).1 : ℚ) * (2 : ℚ) ^ (f.magOf c).2

/-- Follow the minimal route from `cur` for at most k hops: the module reached (R296). -/
def follow (n src dst : Nat) : Nat → Nat → Nat
  | 0, cur => cur
  | k + 1, cur =>
    if cur = dst then cur
    else match neighbour n cur (minimalPort (groups n) cur src dst) with
      | some x => follow n src dst k x.1
      | none => cur

/-- A domain size that R291 allows. -/
def domainSize (n : Nat) : Prop := (1 ≤ n ∧ n ≤ 8) ∨ (n % 8 = 0 ∧ 16 ≤ n ∧ n ≤ 512)

/-- A burst error confined to one lane: no bit flipped on another. -/
def onLane (m : Nat) (e : Nat) : Prop := ∀ p, e.testBit p = true → p < 288 ∧ p % 12 = m

/-! ## What a state leaves alone -/

/-- Every partition's scratchpad is the same in two states. -/
def sameScratch (s t : State) : Prop := ∀ p, (t.part p).sp = (s.part p).sp

/-- What a device reset leaves (R474 to R476): label, power controller, flash and boot slots as they were; memory, sessions and endpoints gone, and a new
start at the time of the reset. -/
def restarted (s t : State) : Prop :=
  t.label = s.label ∧ t.pwr = s.pwr ∧ t.boot.flash = s.boot.flash ∧ t.boot.slot0 = s.boot.slot0 ∧ t.boot.slot1 = s.boot.slot1 ∧ t.mem.mem = [] ∧
    t.sess = .reset ∧ t.trans.eps = [] ∧ t.boot.startAt = s.time.mono

/-- The stacks hold the same bytes in two states. -/
def sameStacks (s t : State) : Prop := t.mem.mem = s.mem.mem

/-- What no command changes: the module's label and the queue of waiting commands. -/
def sameFixed (s t : State) : Prop := t.label = s.label ∧ t.pending = s.pending

/-! ## Safe states -/

/-- A pass register that is empty or holds a whole window of 1,024 values (R151). -/
def Ve.passWhole (v : Ve) : Prop := ∀ l, v.pass = some l → l.length = 1024

/-- A partition whose scratchpad is in canonical form and whose pass registers are whole. -/
def Part.canonical (x : Part) : Prop := Memory.wf x.sp ∧ ∀ k, (x.cluster k).ve.passWhole

/-- A state whose byte memories are in canonical form, the stacks and every scratchpad, and whose pass registers are whole. -/
def State.canonical (s : State) : Prop := Memory.wf s.mem.mem ∧ ∀ p, (s.part p).canonical

/-- A step that goes on: no fault and no refusal. -/
def State.safeStep (s : State) : Prop := ∃ t, step s = .next t

end Sys2Proof.Machine
end

