-- ==== Sys2Proof/WellFormed.lean ====
section
/-! DEFINITION. WellFormed.lean: which commands are well formed: the limits that the spec puts on their fields and that their types do not. -/
namespace Sys2Proof

/-! ## Issues (R61, R67, R89, Table 15.14) -/

/-- Is an engine code one of a compute die's engines and owners (Table 1.6)? -/
def listedEngine (e : Nat) : Bool := (e < 32 && e % 8 < 6) || (0x20 ≤ e && e ≤ 0x22)

/-- Does a unit of this code accept and complete commands: arrays, VE, DE, die cache (Table 3.16)? -/
def acceptsCommands (e : Nat) : Bool := (e < 32 && e % 8 < 5) || e = 0x21 || e = 0x22

/-- Limits of every command: PROGRAM 0 to 2, a TIMEOUT, a listed class, listed formats. -/
def Issue.ok (i : Issue) : Bool :=
  i.prog.toNat ≤ 2 && i.hdr.timeout ≠ 0#24 && i.hdr.cls.toNat ≤ 5 && i.hdr.srcfmt.toNat ≤ 0xA && i.hdr.dstfmt.toNat ≤ 0xA

/-- Engine code of an owner (R67). -/
def Owner.code (o : Owner) : Nat :=
  match o with
  | .csq k => 8 * k + 5
  | .cc => 0x20

/-- Is a cluster's engine named in the stream of that cluster (R61, R67)? -/
def Issue.inCluster (i : Issue) : Bool :=
  match i.owner with
  | .csq k => i.hdr.engine.toNat / 8 = k
  | .cc => false

/-- A matrix command names an array of its stream's cluster. -/
def Issue.onArray (i : Issue) : Bool := i.inCluster && i.hdr.engine.toNat % 8 < 4

/-- A vector command names the VE of its stream's cluster. -/
def Issue.onVe (i : Issue) : Bool := i.inCluster && i.hdr.engine.toNat % 8 = 4

/-- A control command names its stream's owner. -/
def Issue.onOwner (i : Issue) : Bool := i.hdr.engine.toNat = i.owner.code

/-- DE, die-cache and control commands have no formats. -/
def Issue.noFormat (i : Issue) : Bool := i.hdr.srcfmt = 0#4 && i.hdr.dstfmt = 0#4

/-- GANG and ACC of Table 3.4. -/
def MatOps.ok (o : MatOps) : Bool := o.gang.toNat ≤ 3 && o.acc.toNat ≤ 1

/-! ## Packets and messages (Tables 12.4, 14.7, 14.8) -/

/-- The packet types of Table 12.4. -/
def listedTypes : List Nat := [1, 2, 3, 4, 5, 8, 0x10, 0x11, 0x18, 0x19, 0x1A, 0x20]

/-- A packet of a type with so many payload granules. -/
def Packet.isType (p : Packet) (t lo hi : Nat) : Bool := p.type.toNat = t && lo ≤ p.payload.length && p.payload.length ≤ hi

/-- A message of a type whose LEN is that of its body. -/
def Msg.ok (m : Msg) (t : Nat) : Bool := m.type.toNat = t && m.len.toNat = m.body.length

/-! ## Commands -/

/-- Is a command well formed? -/
def Instr.wellFormed (c : Instr) : Bool :=
  match c with
  | .fadd i o | .fsub i o | .fmul i o | .ffma i o | .fdiv i o | .fmin i o | .fmax i o | .fminnum i o | .fmaxnum i o | .fcmpeq i o
  | .fcmpne i o | .fcmplt i o | .fcmple i o | .fcmpgt i o | .fcmpge i o | .fabs i o | .fneg i o | .fsqrt i o | .frsqrt i o | .frcp i o
  | .fexp i o | .fexp2 i o | .flog i o | .flog2 i o | .ftanh i o | .fsigm i o | .fsilu i o | .ffloor i o | .fround i o | .iadd i o
  | .iadds i o | .isub i o | .isubs i o | .imul i o | .imuls i o | .iand i o | .ior i o | .ixor i o | .inot i o | .ishl i o | .ishr i o
  | .isra i o | .imin i o | .imax i o | .umin i o | .umax i o | .icmpeq i o | .icmplt i o | .ucmplt i o | .copy i o | .sel i o | .iota i o
  | .gather i o | .fill i o | .fscan i o | .summ i o | .summi i o | .mld i o | .cvt i o | .topk i o | .rand i o | .randu i o | .statrd i o => i.ok && i.onVe && 1 ≤ o.count.toNat
  | .dcopy i _ | .dwalk i _ | .dstage i _ | .dseal i _ | .sketchUpkeep i _ | .add32 i _ | .add64 i _ | .smin32 i _ | .smin64 i _
  | .smax32 i _ | .smax64 i _ | .umin32 i _ | .umin64 i _ | .umax32 i _ | .umax64 i _ | .swap32 i _ | .swap64 i _ | .cas32 i _ | .cas64 i _
  | .fadd32 i _ | .bfadd16 i _ | .dsignal i _ | .dproofRange i _ | .dproofRow i _ | .demit i _ => i.ok && i.hdr.engine = 0x21#8 && i.noFormat
  | .nop i => i.ok && listedEngine i.hdr.engine.toNat
  | .mload i o => i.ok && i.onArray && o.ok
  | .mmul i o => i.ok && i.onArray && o.ok
  | .mdrain i o => i.ok && i.onArray && o.ok
  | .cinv i _ => i.ok && i.hdr.engine = 0x22#8 && i.noFormat
  | .brs i o => i.ok && i.onOwner && i.noFormat && o.cond.toNat ≤ 7 && o.kind.toNat ≤ 2
  | .jump i _ => i.ok && i.onOwner && i.noFormat
  | .rowloop i o => i.ok && i.onOwner && i.noFormat && 1 ≤ o.body.toNat && o.body.toNat ≤ 255
  | .waitphase i o => i.ok && i.onOwner && i.noFormat && o.phase.toNat ≤ 2
  | .streamEnd i _ => i.ok && i.onOwner && i.noFormat
  | .invalidOpcode word => word.extractLsb' 0 8 = 0#8
  | .commandCompletion _ engine _ => acceptsCommands engine.toNat
  | .commandTimeout i => i.ok
  | .streamLimitExceeded i => i.ok
  | .slackSelfTest tests retrained => retrained.length ≤ 16 && tests.all fun t => t.engine.toNat < 32 && t.engine.toNat % 8 < 6
  | .batchTableReceive t => t.rows.length ≤ 4096 && t.rows.all fun r => r.stage.toNat ≤ 4
  | .class5Issue i => i.prog = 2#2 && i.hdr.cls = 5#4
  | .twinState t => t.modState ≠ 3#2
  | .rd r _ => r.pkt.isType 1 0 0
  | .wr r => r.pkt.isType 2 1 8
  | .mwr r _ => r.pkt.isType 3 2 2
  | .atom r _ => r.pkt.isType 4 0 1
  | .sig r => r.pkt.isType 5 0 0
  | .resp r => r.pkt.isType 8 0 8
  | .plan r => r.pkt.isType 0x10 1 8
  | .late r => r.pkt.isType 0x11 1 8
  | .reservedPacketType r => !listedTypes.contains r.pkt.type.toNat
  | .credit _ vc _ _ => vc ≠ 0#2
  | .directoryUpdateBatch _ us => us.recs.all fun u => u.kind.toNat ≤ 2
  | .freezeQueueReceive block entries _ _ => entries.all fun e => e.addr.toNat % 128 = 0 && e.addr.toNat / 2097152 = block.toNat
  | .helloC h => h.hdr.ptype = 1#4
  | .finish f => f.hdr.ptype = 3#4
  | .data p => p.hdr.ptype = 5#4
  | .ack p => p.hdr.ptype = 6#4 && p.msgs.isEmpty
  | .bye p => p.hdr.ptype = 7#4 && p.msgs.isEmpty
  | .reservedAstPacket h => h.ptype = 0#4 || 8 ≤ h.ptype.toNat
  | .resumePacket p => p.hdr.resume
  | .openMsg _ m => m.ok 1
  | .prompt _ m => m.ok 4
  | .close _ m => m.ok 6
  | .queryStatus _ m => m.ok 8
  | .queryResend _ m => m.ok 8
  | .queryEndpoint _ m => m.ok 8
  | .observeCounters _ m => m.ok 0x0A
  | .observeAttestation _ m => m.ok 0x0A
  | .observeAlarms _ m => m.ok 0x0A
  | .dump _ m => m.ok 0x0C
  | .snapshot _ m => m.ok 0x0D
  | .reservedMessageType _ m => m.type = 0#8 || 0x10 ≤ m.type.toNat
  | .twinData _ _ addr gs => 1 ≤ gs.length && gs.length ≤ 8 && addr.toNat % 128 = 0
  | .twinRecord _ _ rs => 1 ≤ rs.length && rs.length ≤ 16
  | .jobProofCommit layer _ => 1 ≤ layer.toNat
  | .engineReset _ engine => listedEngine engine.toNat
  | .engineResetBound _ engine => listedEngine engine.toNat
  | .selfTestRequest _ engine => engine.toNat < 32 && engine.toNat % 8 < 6
  | .selfTestFail _ engine => engine.toNat < 32 && engine.toNat % 8 < 6
  | .helloD h => h.hdr.ptype = 2#4
  | .coldRewrite _ bytes => bytes.length ≤ 2097152
  | .signalApply _ _ | .arbitrationStarvation _ _ _ _ | .scratchpadCorrectionWriteback _ _ | .strokeBoundary | .workStrokeAdvance
  | .strokeWorkComplete | .duePoint | .strokeClose | .batchTableWrite _ | .slotStart _ | .lateTransfer _ | .jobStreamPark _ _ | .ptpSync _
  | .ptpAnnounce _ | .ptpDelayResponse _ | .ptpLossTimeout | .suspectTimeout | .timeMessageSend | .time _ | .delayExchangeSend | .delay _ _
  | .timeMessageLoss | .offPlanNotice _ _ | .laneCheck _ _ | .refresh _ | .stackTemperatureRead _ | .retrainOverdue _ | .evacuationCopy _
  | .evacuationGranuleAck _ | .patrolScrub _ _ _ | .fenceLift _ | .uncorrectableStrokeFail _ _ _ | .packetForward _ | .packetAgeExpiry _ _
  | .waitStoreRelease _ | .idle _ | .controlAck _ _ | .controlNack _ _ | .slotEnd _ | .retrain _ | .keyswap _ | .linkCrcFailure _ _
  | .replayLimit _ | .portTraining _ _ | .trainingStateTimeout _ | .trainingRetryTimer _ _ | .laneDegraded _ _ | .lossOfLock _
  | .portStateChange _ | .authFailureLimit _ | .linkRekey _ | .linkOffer _ _ | .linkAnswer _ _ | .linkConfirm _ _ | .directoryBatchResend
  | .linkStateBatch _ _ _ | .migrationTransferComplete _ | .frameFree _ | .freezeQueueSpace | .touchBufferSpace
  | .codebookFetchComplete _ _ | .sketchGapClosed _ _ _ _ | .ethernetFrame _ | .handshakeTimeout _ | .ackDelay _ | .retransmitTimeout _ _
  | .pacerSend _ | .admissionQueueEnqueue _ | .admissionDecision | .decisionRecordAck _ | .allocationGrant _ | .decisionReceive _
  | .promptDeadline _ | .tokensSend _ | .dumpCapture | .storeData _ | .storeDone _ _ | .mainPowerGood | .memoryTrainingDone _ | .join _
  | .joined _ | .directoryForm | .objectLoad | .loaded _ | .validationEntryEnd _ | .serving | .startTimeout | .pair _ | .pairAck
  | .pairRetry | .twinToken _ _ | .commit _ | .committed _ | .relay _ | .handover _ _ | .twinLinkDown | .proofWriter | .takeover _
  | .takeoverComplete _ | .deputySuccession _ | .succession _ _ | .suspendedRestore _ _ _ _ | .restoreWaitExpiry _ | .detach
  | .jobStepRelease | .jobStepComplete | .jobStop _ | .jobResume | .heartbeat _ | .heartbeatLoss _ | .moduleBeat _ | .moduleFailed _ _
  | .strokeFailed _ _ _ | .partitionReset _ | .selfRefreshConfirm _ _ | .partitionResetBound _ | .partitionReturn _ | .deviceReset _
  | .drained _ _ _ | .tenantTeardown _ | .powerStageUpdate _ | .powerFloor | .railDroop _ _ | .supplyWarning _ | .supplyWarningEnd _
  | .supplyReset | .mainOvervoltage _ | .dieTemperatureRead _ _ _ | .thermalTrip _ | .tripLatchRelease | .auxDomainStart _ | .auxDomainStop
  | .auxiliaryOutputFault _ | .auxiliaryOutputRetry _ _ | .cfgReq _ | .detachRequest | .status | .power | .energy | .mainV | .mainI | .auxV
  | .auxI | .inlet | .hotCd | .hotMs | .hotLd | .stage | .trip | .identity | .label | .report _ | .smbAlertResponse
  | .smbUnsupportedProtocol _ _ | .traceRecord _ | .traceSample | .traceFrameSend | .traceWindowFreeze | .traceWindowRearm | .alarm _
  | .event _ | .hostPortLinkChange _ | .tracingPortLinkChange _ | .proofWindowStart | .offPlanAck | .batchAcknowledgement _ _ | .reject _ _ => true

end Sys2Proof
end

