-- ==== Sys2Proof/Certificates/Slice0/Obligations.lean ====
section
/-! DEFINITION. Obligations.lean: the statements about the Skelzen module. Each docstring names the rules of spec/ that its statement follows, or
the entry of notes/assumptions that declares a choice of the model. -/

open Sys2Proof Sys2Proof.Machine

/-! ## The queue and the clock -/

/-- Commands run first in, first out: a step runs the front command of the queue on the state with the queue's rest (the model's own reading of a
block: notes/assumptions/3.md). -/
def Obligations.StepRunsTheFrontCommand : Prop :=
  ∀ (c : Instr) (rest : List Instr) (s : State), s.pending = c :: rest → step s = exec c { s with pending := rest }

/-- On an empty queue one nanosecond of the module's own clock passes and nothing but the clocks changes; FT stands until it is set and then moves by
0, 1 or 2 ns and never back (the tick is a DESIGN CHOICE: notes/assumptions/3.md; R34 and R40 let FT only slew). -/
def Obligations.IdleStepMovesOnlyTheClocks : Prop :=
  ∀ s : State, s.pending = [] → ∃ t, step s = .next t ∧ t = { s with time := t.time } ∧ t.time.mono = s.time.mono + 1#64 ∧
    (s.time.ftSet = false → t.time.ft = s.time.ft) ∧
    (s.time.ftSet = true → t.time.ft = s.time.ft ∨ t.time.ft = s.time.ft + 1#64 ∨ t.time.ft = s.time.ft + 2#64)

/-! ## Issuing a program command (spec/03) -/

/-- R61, R81, R562: a matrix, vector, DE or die-cache command at the head of its stream whose owner may run it and whose engine can accept it joins that
engine's commands behind those accepted before, with the engine's GEN, the work stroke and the next serial number; the owner's stream moves to the
next command and counts one more; no scratchpad byte, no stack byte and nothing of another partition changes; then the partition's engines run on. -/
def Obligations.EngineCommandsIssueInOrder : Prop :=
  ∀ (s : State) (i : Issue) (om : MatOps) (ov : VecOps) (od : DeOps) (c : Instr) (k : CmdKind) (a : CmdArgs),
    (c, k, a) ∈ engineForms i om ov od → s.mayIssue i (plateCmd i.hdr k a) → (s.su.catchup && deferrable i.hdr) = false →
    s.canAccept i.part.toNat i.hdr.engine.toNat a = true →
    ∃ (u : State) (r : RunCmd), exec c s = .next (u.runOn i.part.toNat) ∧ u = { s with parts := u.parts } ∧
      (∀ q, q ≠ i.part.toNat → u.part q = s.part q) ∧ sameScratch s u ∧
      (u.part i.part.toNat).unitCmds (unitOf i.hdr.engine.toNat) = (s.part i.part.toNat).unitCmds (unitOf i.hdr.engine.toNat) ++ [r] ∧
      r.kind = k ∧ r.args = a ∧ r.hdr = i.hdr ∧ r.inst = i.inst ∧ r.owner = i.owner ∧ r.stroke = s.su.work ∧
      r.headAt = (s.headOf i).headAt ∧ r.gen = (s.part i.part.toNat).genOf (unitOf i.hdr.engine.toNat) ∧ r.serial = (s.part i.part.toNat).nextSer ∧
      (u.part i.part.toNat).nextSer = r.serial + 1 ∧ u.headOf i = (s.headOf i).ran .next s.ftOr0

/-- R60, R61, R562: while its engine cannot accept it, a command that may otherwise run stays at the head of its stream and nothing changes. In the
second part: R61, R77: a command whose wait condition does not hold stays at the head of its stream: only the mark that it waits changes. In the third
part: R60, R61: a command that is not the one at the head of its stream does not issue: nothing changes. -/
def Obligations.CommandsWaitAtTheHeadOfTheirStream : Prop :=
  (
    ∀ (s : State) (i : Issue) (om : MatOps) (ov : VecOps) (od : DeOps) (c : Instr) (k : CmdKind) (a : CmdArgs),
      (c, k, a) ∈ engineForms i om ov od → s.mayIssue i (plateCmd i.hdr k a) → (s.su.catchup && deferrable i.hdr) = false →
      s.canAccept i.part.toNat i.hdr.engine.toNat a = false → exec c s = .next s) ∧
  (
    ∀ (s : State) (i : Issue) (om : MatOps) (ov : VecOps) (od : DeOps) (oc : CtlOps) (c : Instr) (w : Option PlateCmd),
      ((∃ k a, (c, k, a) ∈ engineForms i om ov od ∧ w = plateCmd i.hdr k a) ∨ (c = .nop i ∧ w = plateCmd i.hdr .nop .none) ∨
        ∃ k, (c, k) ∈ controlForms i oc ∧ w = some (.ctl k oc)) →
      i.part.toNat < s.label.variant.parts → s.owns i = true →
      (s.atHead i w = true → (s.headOf i).issued < s.domain.streamLimit.toNat → s.waitMet i.part.toNat i.hdr = false →
        ∃ t, exec c s = .next t ∧ t = { s with parts := t.parts } ∧ t.headOf i = { s.headOf i with waiting := true } ∧
          (∀ q, q ≠ i.part.toNat → t.part q = s.part q) ∧ (t.part i.part.toNat).allCmds = (s.part i.part.toNat).allCmds) ∧
      (s.atHead i w = false → exec c s = .next s))

/-- R77: the effective count of a semaphore of the work stroke is COUNT when STROKE is the work stroke and 0 when it lies before it, and a command
with WAIT_EN meets its wait condition exactly when the effective count of WAIT_SEM is at least WAIT_COUNT. The statement is about the semaphores
that R448 does not give to the job. -/
def Obligations.SemaphoreWaitNeedsTheEffectiveCount : Prop :=
  ∀ (s : State) (p : Nat) (h : CmdHdr), h.waitSem.toNat < 8064 →
    (((s.part p).sem h.waitSem.toNat).stroke = s.su.work →
      (s.part p).effective s.su.work h.waitSem.toNat = ((s.part p).sem h.waitSem.toNat).count.toNat) ∧
    (((s.part p).sem h.waitSem.toNat).stroke.toNat < s.su.work.toNat → (s.part p).effective s.su.work h.waitSem.toNat = 0) ∧
    (h.waitEn = true → (s.waitMet p h = true ↔ h.waitCount.toNat ≤ (s.part p).effective s.su.work h.waitSem.toNat)) ∧
    (h.waitEn = false → s.waitMet p h = true)

/-- R65: the command at the head of its stream that would exceed the stream limit is not issued and is handled as one whose timeout has expired: the
reset of its engine, or of its owner where it executes itself, begins (R80, R461), and nothing else changes. In the second part: R80, R461, R488: when
the timeout of a command at the head of its stream, or accepted and not complete, expires, FT has reached its end and the reset of its engine begins;
the timeout counts from when the command reached the head. One later than the instance's DETECT_BOUND brings exclusion 0x5 into force for the sessions
that had a row in the stroke. A command of a failed stroke has no timeout. A command of the tuning job so failed stops the job too (R458). -/
def Obligations.TimeoutsBeginEngineResets : Prop :=
  (
    ∀ (s : State) (i : Issue) (om : MatOps) (ov : VecOps) (od : DeOps) (oc : CtlOps) (c : Instr) (e : Nat),
      ((∃ k a, (c, k, a) ∈ engineForms i om ov od ∧ s.atHead i (plateCmd i.hdr k a) = true ∧ e = i.hdr.engine.toNat) ∨
        (c = .nop i ∧ s.atHead i (plateCmd i.hdr .nop .none) = true ∧ e = i.hdr.engine.toNat) ∨
        (c = .streamLimitExceeded i ∧ (s.headedBy i).isSome = true ∧ e = i.hdr.engine.toNat) ∨
        ∃ k, (c, k) ∈ controlForms i oc ∧ s.atHead i (some (.ctl k oc)) = true ∧ e = ownerCode i.owner) →
      i.part.toNat < s.label.variant.parts → s.owns i = true → (s.su.catchup && deferrable i.hdr) = false →
      s.domain.streamLimit.toNat ≤ (s.headOf i).issued → (s.part i.part.toNat).reset = none →
      (∀ r ∈ (s.part i.part.toNat).engResets, r.engine ≠ e) →
      (i.hdr.cls = 5#4 → s.job.phase = .running → ∃ t, exec c s = .next t ∧ t.job.phase = .waiting ∧ t.job.open_ = [] ∧ sameScratch s t ∧ sameStacks s t ∧
        (t.part i.part.toNat).engResets = (s.part i.part.toNat).engResets ++ [⟨e, s.ftOr0, false⟩]) ∧
      (i.hdr.cls ≠ 5#4 → ∃ t, exec c s = .next t ∧ t = { s with parts := t.parts } ∧ (∀ q, q ≠ i.part.toNat → t.part q = s.part q) ∧
        t.part i.part.toNat = { s.part i.part.toNat with engResets := (s.part i.part.toNat).engResets ++ [⟨e, s.ftOr0, false⟩] })) ∧
  (
    ∀ (s : State) (i : Issue) (h : Word64), i.part.toNat < s.label.variant.parts → s.headSince i = some h →
      (i.inst ∈ s.su.failed → i.hdr.cls ≠ 5#4 → exec (.commandTimeout i) s = .next s) ∧
      ((i.inst ∉ s.su.failed ∨ i.hdr.cls = 5#4) → s.time.ftSet = true → s.timeoutEnd h i.hdr.timeout < 2 ^ 64 → (s.part i.part.toNat).reset = none →
        (∀ r ∈ (s.part i.part.toNat).engResets, r.engine ≠ i.hdr.engine.toNat) →
        (i.hdr.cls = 5#4 → s.job.phase = .running → ∃ t, exec (.commandTimeout i) s = .next t ∧ t.job.phase = .waiting ∧ t.job.open_ = [] ∧
          sameScratch s t ∧ sameStacks s t ∧ t.sess = s.sess ∧
          (t.part i.part.toNat).engResets = (s.part i.part.toNat).engResets ++ [⟨i.hdr.engine.toNat, t.time.ft, false⟩]) ∧
        (i.hdr.cls ≠ 5#4 → ∃ t, exec (.commandTimeout i) s = .next t ∧ t = { s with parts := t.parts, time := t.time, sess := t.sess } ∧
          t.time.ft.toNat = max s.time.ft.toNat (s.timeoutEnd h i.hdr.timeout) ∧ (∀ q, q ≠ i.part.toNat → t.part q = s.part q) ∧
          t.part i.part.toNat = { s.part i.part.toNat with
            engResets := (s.part i.part.toNat).engResets ++ [⟨i.hdr.engine.toNat, t.time.ft, false⟩] } ∧
          t.sess.list = s.sess.list ∧
          (∀ a, s.admRec i.inst = some a → h.toNat + 1000 * a.detect.toNat < t.time.ft.toNat →
            ∀ x ∈ s.sess.list, x.inst = i.inst → x.ranIn s.su.work = true → x.closing = none → ∃ e ∈ t.sess.excls, e.same 5 (some x.key) = true))))

/-- R90: in a catch-up stroke the command of classes 1 to 4 at the head of its stream that is addressed to an engine is retired, once its wait condition
holds, without being executed: it joins no engine, it writes no scratchpad byte and no stack byte, and the stream moves on without counting it; then
the partition's engines run on. -/
def Obligations.CatchUpRetiresDeferrableCommands : Prop :=
  ∀ (s : State) (i : Issue) (om : MatOps) (ov : VecOps) (od : DeOps) (c : Instr) (k : CmdKind) (a : CmdArgs),
    (c, k, a) ∈ (.nop i, .nop, .none) :: engineForms i om ov od →
    s.mayRetire i (plateCmd i.hdr k a) → s.su.catchup = true → 1 ≤ i.hdr.cls.toNat → i.hdr.cls.toNat ≤ 4 →
    ∃ u : State, exec c s = .next (u.runOn i.part.toNat) ∧ u.headOf i =
        { (s.headOf i).next with headAt := some s.ftOr0, waiting := false, heldTo := none } ∧
      (u.part i.part.toNat).allCmds = (s.part i.part.toNat).allCmds ∧ sameScratch s u ∧ sameStacks s u

/-- R73 to R75, R92, R167, R271: a NOP completes at once; JUMP and a BRS whose condition holds branch by TARGET, a BRS whose condition does not hold
goes on; ROWLOOP enters its body for the first selected row, or passes it when none is selected; WAITPHASE completes once FT has reached the
phase, and before that holds its owner until the phase; END marks the instance's stream ended for the work stroke. None of them writes a
scratchpad or stack byte. In the second part: R93: for KIND FP32, −0 equals +0, and when either operand is a NaN only conditions 0x1 and 0x6 hold. -/
def Obligations.ControlCommandsMoveTheStream : Prop :=
  (
    ∀ (s : State) (i : Issue) (o : CtlOps),
      (s.mayIssue i (some .nop) → (s.su.catchup && deferrable i.hdr) = false → ∃ u : State, exec (.nop i) s = .next (u.runOn i.part.toNat) ∧
        u.headOf i = (s.headOf i).ran .next s.ftOr0 ∧ (u.part i.part.toNat).allCmds = (s.part i.part.toNat).allCmds ∧
        sameScratch s u ∧ sameStacks s u) ∧
      (s.mayIssue i (some (.ctl 0x41 o)) → ∃ t, exec (.jump i o) s = .next t ∧ sameScratch s t ∧ sameStacks s t ∧
        t.headOf i = (s.headOf i).ran (·.jump (branchTarget (s.headOf i).pos o.target)) s.ftOr0) ∧
      (s.mayIssue i (some (.ctl 0x40 o)) → ∃ t, exec (.brs i o) s = .next t ∧ sameScratch s t ∧ sameStacks s t ∧
        t.headOf i = if condHolds o.kind.toNat o.cond.toNat (s.slotValue i.part.toNat o) o.imm then
          (s.headOf i).ran (·.jump (branchTarget (s.headOf i).pos o.target)) s.ftOr0 else (s.headOf i).ran .next s.ftOr0) ∧
      (s.mayIssue i (some (.ctl 0x42 o)) → ∃ t, exec (.rowloop i o) s = .next t ∧ sameScratch s t ∧ sameStacks s t ∧
        t.headOf i = (s.headOf i).ran (·.enterLoop (selectRows (s.rows i.inst) o.stagemask) o) s.ftOr0) ∧
      (s.mayIssue i (some (.ctl 0x43 o)) → ∃ t, exec (.waitphase i o) s = .next t ∧ sameScratch s t ∧ sameStacks s t ∧
        t.headOf i = if s.phaseAt o.phase.toNat ≤ s.time.ft.toNat then (s.headOf i).ran .next s.ftOr0
          else { s.headOf i with heldTo := some (BitVec.ofNat 64 (s.phaseAt o.phase.toNat)) }) ∧
      (s.mayIssue i (some (.ctl 0x44 o)) → ∃ t, exec (.streamEnd i o) s = .next t ∧ sameScratch s t ∧ sameStacks s t ∧
        (i.prog ≠ 2#2 → i.inst ∈ ((t.part i.part.toNat).owner i.owner).ended) ∧
        (i.prog = 2#2 → t.headOf i = { StreamPos.reset with inst := i.inst, prog := 2#2 }))) ∧
  (
    ∀ (v imm : Word32) (cond : Nat), cond < 8 →
      (isNaN v = true → (condHolds 0 cond v imm = true ↔ cond = 1 ∨ cond = 6)) ∧
      (isNaN imm = true → cond < 6 → (condHolds 0 cond v imm = true ↔ cond = 1)) ∧
      condHolds 0 0 0x80000000#32 0x00000000#32 = true ∧ condHolds 0 7 0x80000000#32 imm = true)

/-- R81, R115, R174, R278, R525, R154: the completion of the command of an opcode that an engine completes next, when its GEN is current and its TIMEOUT has
not run out by then, comes at its start and its busy cycles with the stalls counted to it, writes the rest of its lines, and closes its counters under
its tag; a VOP with a summary writes its summary slot; then the held signals that nothing holds any more are released and the partition's engines run
on. In the second part: R80: one whose TIMEOUT runs out before it is done has failed: the reset of its engine begins at that time. -/
def Obligations.CompletionClosesTheCommand : Prop :=
  ∀ (s : State) (part : BitVec 4) (e op : BitVec 8) (st : Stalls) (errs : List MemErr) (r : RunCmd), part.toNat < s.label.variant.parts →
    (s.part part.toNat).reset = none → (s.part part.toNat).completing e.toNat op.toNat = some r →
    r.gen = (s.part part.toNat).genOf (unitOf e.toNat) →
    let c := r.stalled st.cycles.toNat
    let due := s.timeoutEnd (r.headAt.getD r.issuedAt) r.hdr.timeout
    (s.endOf c ≤ due →
      ∃ (u : State) (x : ClosedCnt), exec (.commandCompletion part e ⟨op, st, errs⟩) s = .next ((u.flushReleases part.toNat).runOn part.toNat) ∧
        SMap.find (u.part part.toNat).closed e.toNat = some x ∧ x.cnt.busy = r.cnt.busy + st.cycles.toNat + r.rowStall ∧
        x.cnt.stall = r.cnt.stall + st.cycles.toNat + r.rowStall ∧ x.layer = r.hdr.layer ∧ x.oper = r.hdr.operator ∧ x.stroke = r.stroke ∧ x.state = 1 ∧
        (u.part part.toNat).sp = ((s.part part.toNat).putLines r.lines).sp ∧ (∀ q, q ≠ part.toNat → (u.part q).sp = (s.part q).sp) ∧ sameStacks s u ∧
        (s.time.ftSet = true → s.endOf c < 2 ^ 64 → u.time.ft.toNat = max s.time.ft.toNat (s.endOf c)) ∧
        (∀ k o v, unitOf e.toNat = .ve k → r.args = .vec o → r.summary = some v → k < 4 →
          ((u.part part.toNat).cluster k).ve.slots[o.sumslot.toNat]? = some v)) ∧
    (due < s.endOf c → (∀ x ∈ (s.part part.toNat).engResets, x.engine ≠ e.toNat) →
      ∃ t, exec (.commandCompletion part e ⟨op, st, errs⟩) s = .next t ∧ sameScratch s t ∧ sameStacks s t ∧
        (t.part part.toNat).engResets = (s.part part.toNat).engResets ++ [⟨e.toNat, t.ftOr0, false⟩])

/-- R78, R448: what a partition in service does with a signal. In the work stroke it sets or raises the semaphore, saturating at 0xFFFF; a signal of a
later stroke is parked while the buffer has room, and waits at the module while it has none; one of an earlier stroke is discarded and counted. Other semaphores, the scratchpads and the
stacks keep their contents. -/
def Obligations.SignalAppliedByItsStroke : Prop :=
  ∀ (s : State) (part : BitVec 4) (g : Signal), part.toNat < s.label.variant.parts → (s.part part.toNat).reset = none →
    g.sem.toNat < 8064 → ∃ t, exec (.signalApply part g) s = .next t ∧ sameScratch s t ∧ sameStacks s t ∧ t.su = s.su ∧
      (∀ n, n ≠ g.sem.toNat → (t.part part.toNat).sem n = (s.part part.toNat).sem n) ∧
      (g.stroke = s.su.work → ((s.part part.toNat).sem g.sem.toNat).stroke.toNat < s.su.work.toNat →
        (t.part part.toNat).sem g.sem.toNat = ⟨s.su.work, g.inc⟩) ∧
      (g.stroke = s.su.work → ((s.part part.toNat).sem g.sem.toNat).stroke = s.su.work →
        (t.part part.toNat).sem g.sem.toNat =
          ⟨s.su.work, BitVec.ofNat 16 (min (((s.part part.toNat).sem g.sem.toNat).count.toNat + g.inc.toNat) 0xFFFF)⟩) ∧
      (s.su.work.toNat < g.stroke.toNat → (s.part part.toNat).early.length < 256 →
        t = { s with parts := t.parts } ∧ (t.part part.toNat).early = (s.part part.toNat).early ++ [g] ∧
          (t.part part.toNat).sem g.sem.toNat = (s.part part.toNat).sem g.sem.toNat) ∧
      (s.su.work.toNat < g.stroke.toNat → 256 ≤ (s.part part.toNat).early.length →
        t = { s with mem := { s.mem with sigWait := s.mem.sigWait ++ [(part.toNat, g)] } }) ∧
      (g.stroke.toNat < s.su.work.toNat → t = { s with obs := t.obs } ∧
        t.ctr ⟨0x0131, part.toNat, 0xFF, 0⟩ = min (s.ctr ⟨0x0131, part.toNat, 0xFF, 0⟩ + 1) 0xFFFFFFFFFFFFFFFF)

/-! ## Vector operations (spec/06) -/

/-- R150, Table 6.4: an element-wise operation over COUNT windows whose DST lies in scratchpad apart from the sources it reads: every result element
is the operation on the operands' elements of the same index, and no other scratchpad byte and no element of the pass register changes. With DST
the pass register and one window, the pass register holds the results and scratchpad keeps its bytes. In the second part: Table 6.4, R159: IOTA,
FILL, RAND and RANDU write, for every element index of the run, the value that the index gives; no other scratchpad byte changes. In the second
part: Table 6.4, Table 6.6: the INT32 operations on one element: wrapping and saturating sums, differences and products with their counts, minimum
and maximum under both readings, comparisons as masks, shifts by B modulo 32, and SEL. -/
def Obligations.VectorRunsComputeEachElement : Prop :=
  (
    ∀ (op : VOp) (x : VArgs) (v : VRun), op.elementwise = true → Memory.wf v.sp → (∀ l, v.pass = some l → l.length = 1024) →
      (∀ d, x.dst = .at d → x.clear op d →
        (∀ n, n < 1024 * x.count → wordAt (vopRun op x [] v).sp (d + 4 * n) = (vElem op (elemOf v x.a n) (operandB v x n) (elemOf v x.c n)).val) ∧
        (∀ a, a < d ∨ d + 4096 * x.count ≤ a → (vopRun op x [] v).sp.read a = v.sp.read a) ∧ (vopRun op x [] v).pass = v.pass) ∧
      (x.dst = .pass → x.count = 1 → (vopRun op x [] v).sp = v.sp ∧
        ∃ l, (vopRun op x [] v).pass = some l ∧ l.length = 1024 ∧
          ∀ n, n < 1024 → l[n]? = some (vElem op (elemOf v x.a n) (operandB v x n) (elemOf v x.c n)).val)) ∧
  (
    (
      ∀ (x : VArgs) (v : VRun) (d : Nat), x.dst = .at d → Memory.wf v.sp →
        ∀ p ∈ [(VOp.iota, fun n => (iotaElem x.imm n).val), (VOp.fill, fun _ => x.imm), (VOp.rand, philoxElem x.seed x.imm x.outIdx),
               (VOp.randu, fun n => randuElem (philoxElem x.seed x.imm x.outIdx n))],
          (∀ n, n < 1024 * x.count → wordAt (vopRun p.1 x [] v).sp (d + 4 * n) = p.2 n) ∧
          (∀ a, a < d ∨ d + 4096 * x.count ≤ a → (vopRun p.1 x [] v).sp.read a = v.sp.read a)) ∧
    (
      ∀ a b c : Word32,
        (vElem .iadd a b c).val = a + b ∧ (vElem .isub a b c).val = a - b ∧ (vElem .imul a b c).val = a * b ∧
        ((vElem .iadd a b c).st.wrap = 1 ↔ (a + b).toInt ≠ a.toInt + b.toInt) ∧
        ((vElem .imul a b c).st.wrap = 1 ↔ (a * b).toInt ≠ a.toInt * b.toInt) ∧
        (vElem .iadds a b c).val.toInt = max (-2147483648) (min (a.toInt + b.toInt) 2147483647) ∧
        (vElem .isubs a b c).val.toInt = max (-2147483648) (min (a.toInt - b.toInt) 2147483647) ∧
        (vElem .imuls a b c).val.toInt = max (-2147483648) (min (a.toInt * b.toInt) 2147483647) ∧
        ((vElem .iadds a b c).st.saturate = 1 ↔ (vElem .iadds a b c).val.toInt ≠ a.toInt + b.toInt) ∧
        (vElem .imin a b c).val.toInt = min a.toInt b.toInt ∧ (vElem .imax a b c).val.toInt = max a.toInt b.toInt ∧
        (vElem .umin a b c).val.toNat = min a.toNat b.toNat ∧ (vElem .umax a b c).val.toNat = max a.toNat b.toNat ∧
        (vElem .icmpeq a b c).val = (if a = b then 0xFFFFFFFF#32 else 0#32) ∧
        (vElem .icmplt a b c).val = (if a.toInt < b.toInt then 0xFFFFFFFF#32 else 0#32) ∧
        (vElem .ucmplt a b c).val = (if a.toNat < b.toNat then 0xFFFFFFFF#32 else 0#32) ∧
        (vElem .ishl a b c).val.toNat = a.toNat * 2 ^ (b.toNat % 32) % 2 ^ 32 ∧
        (vElem .ishr a b c).val.toNat = a.toNat / 2 ^ (b.toNat % 32) ∧ (vElem .isra a b c).val.toInt = a.toInt / 2 ^ (b.toNat % 32) ∧
        (vElem .sel a b c).val = (if a = 0#32 then c else b)))

/-- R61, R150, R161, R278: an element-wise vector command issued by its CSQ on a partition that holds no other engine command starts at once: when its
operands pass the checks of R152 and R163 and hold no uncorrectable word, the VE runs it with the lines of its result still to be written: once they
are, its DST in scratchpad, apart from its sources, holds the operation's results and every other byte of the scratchpad is what it was. Until then,
no byte of a scratchpad and no stack byte has changed. -/
def Obligations.VectorCommandWritesItsResults : Prop :=
  ∀ (s : State) (i : Issue) (o : VecOps) (k : Fin 4) (c : Instr) (op : VOp) (d : Nat),
    let p := i.part.toNat
    let x := s.part p
    let ve := (x.cluster k).ve
    let r := s.runCmd i (.vop op) (.vec o)
    let args := vopArgs s ve r o
    (c, op) ∈ vectorForms i o → op.elementwise = true → i.hdr.engine = BitVec.ofNat 8 (veCode k) → s.mayIssue i (some (.vec op o)) →
    (s.su.catchup && deferrable i.hdr) = false →
    s.canonical → x.quiet → vopBad s p ve op r o = false →
    (∀ q ∈ vopSources op i.hdr o r.off, x.badIn q.1 q.2 = false) → args.dst = .at d → args.clear op d →
    ∃ t g, exec c s = .next t ∧ sameStacks s t ∧ sameScratch s t ∧ ((t.part p).cluster k).ve.running = [g] ∧ g.kind = .vop op ∧ g.done = true ∧
      let v : VRun := ⟨x.sp, ve.pass, [], .zero, none⟩
      let y := (t.part p).putLines g.lines
      (∀ n, n < 1024 * o.count.toNat →
        wordAt y.sp (d + 4 * n) = (vElem op (elemOf v args.a n) (operandB v args n) (elemOf v args.c n)).val) ∧
      ∀ a, a < d ∨ d + 4096 * o.count.toNat ≤ a → y.sp.read a = x.sp.read a

/-! ## Number formats (spec/05) -/

/-- R140: rounding into BF16, FP16 and FP32 is to nearest with ties to even: a finite result is at least as near to the exact value as any other
finite magnitude of the format, and of two equally near it is the even one; the result is infinity exactly when the value is at least half a last
place above the largest finite magnitude. In the second part: R134, R143: a BF16 or FP16 value that is not a NaN goes into FP32 exactly:
converting it back gives the same code, and neither conversion counts anything. In the second part: R126, R127, R142: a converted MX block of
finite values carries the scale of its largest magnitude, no scale 0xFF, and codes no larger in magnitude than the format's largest; a block with
a NaN or an infinity carries the NaN scale and zero codes. -/
def Obligations.FormatsRoundWidenAndScale : Prop :=
  (
    (
      ∀ f ∈ [Fmt.bf16, Fmt.fp16, Fmt.fp32], ∀ (m : Nat) (e : Int) (neg : Bool),
        let x : ℚ := (m : ℚ) * (2 : ℚ) ^ e
        let r := f.ofFin neg m e
        (r.2 = false → ∃ c, c < f.infCode ∧ r.1 = f.signBits neg + c ∧
          ∀ d, d < f.infCode → |codeValue f c - x| ≤ |codeValue f d - x| ∧ (|codeValue f c - x| = |codeValue f d - x| → d ≠ c → c % 2 = 0)) ∧
        (r.2 = true → r.1 = f.signBits neg + f.infCode) ∧
        (r.2 = true ↔ (codeValue f (f.infCode - 1) + codeValue f f.infCode) / 2 ≤ x)) ∧
    (
      ∀ c : BitVec 16, ∀ q ∈ [(7, Fmt.bf16), (8, Fmt.fp16)], Fmt.toFl q.2 c.toNat ≠ .nan →
        (fromF32 q.1 (toF32 q.1 0 c.toNat).val).1 = c.toNat ∧ (toF32 q.1 0 c.toNat).st = .zero ∧
          (fromF32 q.1 (toF32 q.1 0 c.toNat).val).2 = .zero)) ∧
  (
    ∀ (c : Nat) (zs : List Word32), 1 ≤ c → c ≤ 6 →
      (zs ≠ [] → (∀ z ∈ zs, magBits z < 0x7F800000) → (mxBlock c zs).codes.length = zs.length ∧
        (∀ y ∈ (mxBlock c zs).codes, y < 2 ^ elemBits c ∧ y % 2 ^ (elemBits c - 1) ≤ mxMaxCode c ∧ (c = 6 → y ≠ 0x80)) ∧
        ∃ z ∈ zs, (∀ y ∈ zs, magBits y ≤ magBits z) ∧ (magBits z = 0 → (mxBlock c zs).scale = 0) ∧
          (0 < magBits z → ((mxBlock c zs).scale : Int) - 127 = max (-127) (min (log2Of z - mxEmax c) 127))) ∧
      ((∃ z ∈ zs, 0x7F800000 ≤ magBits z) → (mxBlock c zs).scale = 0xFF ∧ ∀ y ∈ (mxBlock c zs).codes, y = 0))

/-! ## Atomic operations at the home (spec/11) -/

/-- R280, Table 11.2: what each DATOM operation leaves in memory from the old value and VALUE, under the reading that its name gives. -/
def Obligations.AtomicsLeaveTheNamedResult : Prop :=
  ∀ old value cmp : BitVec 64,
    let lo (x : BitVec 64) : BitVec 32 := x.truncate 32
    lo (AtomOp.add32.apply old value cmp) = lo old + lo value ∧ AtomOp.add64.apply old value cmp = old + value ∧
    (lo (AtomOp.smin32.apply old value cmp)).toInt = min (lo old).toInt (lo value).toInt ∧
    (AtomOp.smin64.apply old value cmp).toInt = min old.toInt value.toInt ∧
    (lo (AtomOp.smax32.apply old value cmp)).toInt = max (lo old).toInt (lo value).toInt ∧
    (AtomOp.smax64.apply old value cmp).toInt = max old.toInt value.toInt ∧
    (lo (AtomOp.umin32.apply old value cmp)).toNat = min (lo old).toNat (lo value).toNat ∧
    (AtomOp.umin64.apply old value cmp).toNat = min old.toNat value.toNat ∧
    (lo (AtomOp.umax32.apply old value cmp)).toNat = max (lo old).toNat (lo value).toNat ∧
    (AtomOp.umax64.apply old value cmp).toNat = max old.toNat value.toNat ∧
    lo (AtomOp.swap32.apply old value cmp) = lo value ∧ AtomOp.swap64.apply old value cmp = value ∧
    lo (AtomOp.cas32.apply old value cmp) = (if lo old = (value >>> 32).truncate 32 then lo value else lo old) ∧
    AtomOp.cas64.apply old value cmp = (if old = cmp then value else old)

/-! ## Memory stacks (spec/09) -/

/-- R219: the stored burst of 32 data bytes has syndrome zero, a CRC that matches, and gives its data back. In the second part: R220: with a marked
lane, whatever that lane delivers, the read gives the stored data: as corrected when the lane differs from what was stored, as clean when it does
not. -/
def Obligations.StoredBurstsReadBack : Prop :=
  (
    ∀ bs : List Byte, bs.length = 32 →
      burstData (encodeBurst bs) = bs ∧ crcOk (encodeBurst bs) = true ∧ syndromeZero (encodeBurst bs) = true ∧ encodeBurst bs < 2 ^ 288) ∧
  (
    ∀ (bs : List Byte) (m first second lanes : Nat), bs.length = 32 → m < 12 → onLane m first →
      readBurst (some m) bs first second lanes = if first = 0 then .clean bs else .corrected bs)

/-- R18, R20: ownership is computed: with N of 36, 64 or 48 by the variant, subchannel c of stack s has the global index g = 48 s + c and belongs to
partition floor(g / N) as its local subchannel g mod N, and conversely. The twin port is FP15, on the SKZ-N12 FP30 and FP31, and every other port
belongs to the domain fabric. -/
def Obligations.SubchannelsHaveOneOwner : Prop :=
  (∀ (v : Variant) (g : Nat), v.subs = (match v with | .a16 => 36 | .m12 => 64 | .n12 => 48) ∧
    (g < 48 * v.stacks →
      (subOwner v g).1 = g / v.subs ∧ (subOwner v g).2 = g % v.subs ∧ (subOwner v g).1 < v.parts ∧
      subGlobal v (subOwner v g).1 (subOwner v g).2 = g ∧ (subStack g).1 = g / 48 ∧ (subStack g).2 = g % 48 ∧ (subStack g).1 < v.stacks) ∧
    ∀ p j, p < v.parts → j < v.subs → subGlobal v p j = v.subs * p + j ∧ subOwner v (subGlobal v p j) = (p, j) ∧
      subGlobal v p j < 48 * v.stacks) ∧
  (∀ (v : Variant) (p : Nat), p < v.ports → (v.isTwinPort p = true ↔ match v with | .a16 | .m12 => p = 15 | .n12 => p = 30 ∨ p = 31))

/-- R223: the interleave of a spread puts distinct granules of its frames in distinct places: partition, subchannel and offset. In the second part:
R238: the relocation of a mapped-out subchannel puts distinct offsets in distinct places, none of them in the subchannels already out and all of
them at or above the patch range's first offset. -/
def Obligations.GranulePlacesStayApart : Prop :=
  (
    ∀ (sp : Spread) (n f g f' g' : Nat), 0 < n → sp.members ≠ [] → sp.holds f = true → sp.holds f' = true → g < 16384 → g' < 16384 →
      sp.place n f g = sp.place n f' g' → f = f' ∧ g = g') ∧
  (
    ∀ (n k : Nat) (out : List Nat), k < n → out.Nodup → out.length = k → (∀ j ∈ out, j < n) →
      (∀ o o', relocate n out k o = relocate n out k o' → o = o') ∧
      ∀ o, (relocate n out k o).1 < n ∧ (relocate n out k o).1 ∉ out ∧ patchBase n k ≤ (relocate n out k o).2)

/-! ## Topology and routing (spec/12) -/

/-- R292, R293: the cables of a domain of an allowed size pair the ports: the far end of the far end of a used port is the port itself. In the second
part: R293, R296: in a domain of an allowed size with every port up, the minimal route reaches its destination within three hops: the diameter. -/
def Obligations.CablesAndRoutesReachEveryModule : Prop :=
  (
    ∀ n m j : Nat, domainSize n → m < n → j < 15 →
      ∀ x, neighbour n m j = some x → x.1 < n ∧ x.2 < 15 ∧ neighbour n x.1 x.2 = some (m, j)) ∧
  (
    ∀ n src dst : Nat, domainSize n → src < n → dst < n → follow n src dst 3 src = dst)

/-! ## Strokes, work strokes and batch tables (spec/02, spec/03) -/

/-- R46, R47, Table 2.4: within every stroke of a plate the phases follow one another: the compute window begins 20 µs after the start, the proof
window, the due point and the close in that order, and the next stroke 200 µs after the close. In the second part: R48: at S(n + 1) the stroke
index becomes n + 1, whatever the engines do, and FT has reached the boundary; the boundary's actions follow it on a module that starts or serves. -/
def Obligations.StrokesAndTheirPhases : Prop :=
  (
    ∀ (s : State) (n : Nat), 200000 + s.domain.slackNs + s.domain.proofNs + 20000 ≤ s.periodNs →
      s.strokeStart n < s.computeAt n ∧ s.computeAt n ≤ s.proofAt n ∧ s.proofAt n ≤ s.dueAt n ∧ s.dueAt n ≤ s.closeAt n ∧
      s.closeAt n + 200000 = s.strokeStart (n + 1) ∧ s.dueAt n - s.computeAt n = s.capacityNs ∧
      (s.domain.slack = 0#32 → s.domain.slackNs = 1000 * (s.domain.period.toNat * 4 / 100)) ∧
      (s.domain.proofWin = 0#32 → s.domain.proofNs = 1000 * (s.domain.period.toNat * 75 / 1000))) ∧
  (
    ∀ s : State, s.time.ftSet = true → s.boot.plate.isSome = true → s.strokeStart (s.time.stroke.toNat + 1) < 2 ^ 64 →
      ∃ u : State, exec .strokeBoundary s = .next (if s.running then u.boundary else u) ∧ u = { s with time := u.time } ∧
        u.time.stroke = s.time.stroke + 1#48 ∧ s.strokeStart (s.time.stroke.toNat + 1) ≤ u.time.ft.toNat ∧ s.time.ft.toNat ≤ u.time.ft.toNat)

/-- R55, R63: the work stroke becomes the next one when its time and its predecessor's completion allow: its work has begun and is not complete, it is
a catch-up stroke exactly when one was ordered for it, and its window is not lag-free yet; the scratchpads and the stacks keep their bytes. In the
second part: R55: when every stream of the work stroke has executed END and every command has completed, C(n) is FT now, and the lag is how far it
lies behind D(n), 0 where it does not; the scratchpads and the stacks keep their bytes. In the second part: R56, R57: at D(n) of the current
stroke, work that is not complete makes stroke n + 1 a catch-up stroke and marks stroke n as ended with lag; complete work makes the window
lag-free and ends an overrun. -/
def Obligations.WorkStrokesAdvanceAndComplete : Prop :=
  (
    (
      ∀ s : State, s.mayAdvance = true → ∃ t, exec .workStrokeAdvance s = .next t ∧ t.su.work = BitVec.ofNat 48 s.nextWork ∧ t.su.begun = true ∧
        t.su.doneAt = none ∧ t.su.lagFree = false ∧ t.su.catchup = s.su.catchAt.contains (BitVec.ofNat 48 s.nextWork).toNat ∧
        sameScratch s t ∧ sameStacks s t) ∧
    (
      ∀ s : State, s.su.begun = true → s.su.doneAt = none → (∀ p < s.label.variant.parts, s.partDone p = true) →
        ∃ t, exec .strokeWorkComplete s = .next t ∧ t.su.doneAt = some s.time.ft ∧ t.su.doneWork = s.su.work ∧
          t.su.lag = s.time.ft.toNat - s.dueAt s.su.work.toNat ∧ sameScratch s t ∧ sameStacks s t)) ∧
  (
    ∀ s : State, s.time.ftSet = true → s.running = true → s.su.begun = true → ∃ t, exec .duePoint s = .next t ∧ sameScratch s t ∧ sameStacks s t ∧
      (s.su.doneWork.toNat < s.time.stroke.toNat →
        s.time.stroke.toNat + 1 ∈ t.su.catchAt ∧ s.time.stroke.toNat ∈ t.su.lagged ∧ t.su.lagFree = false) ∧
      (s.time.stroke.toNat ≤ s.su.doneWork.toNat → t.su.lagFree = true ∧ t.su.overrun = false ∧ t.su.catchRun = 0 ∧ t.su.catchAt = s.su.catchAt))

/-- R64, R75, R82, R231: in the slack and at the ends of a stroke. In a lag-free window the subchannels named are retrained; the close ends the
window; a WAITPHASE that the proof window lets go on no longer holds its owner; a table still with the SU is written into its batch areas, header
and rows; a table received is kept, and begins at once where the work stroke waits for it. -/
def Obligations.StrokeEventsPrepareTheNextStroke : Prop :=
  (∀ (s : State) (gs : List (BitVec 10)), s.su.lagFree = true → s.time.ft.toNat < s.closeAt s.time.stroke.toNat → gs.length ≤ 16 →
    (∀ g ∈ gs, g.toNat < 48 * s.label.variant.stacks) →
    ∃ t, exec (.slackSelfTest [] gs) s = .next t ∧ (∀ g ∈ gs, (t.sub g.toNat).retrained = s.time.mono) ∧ sameStacks s t ∧ sameScratch s t) ∧
  (∀ s : State, s.time.ftSet = true → s.running = true → ∃ t, exec .strokeClose s = .next t ∧ t.su.lagFree = false) ∧
  (∀ s : State, s.su.begun = true → s.time.ftSet = true → s.proofAt s.su.work.toNat < 2 ^ 64 →
    ∃ t, exec .proofWindowStart s = .next t ∧ s.proofAt s.su.work.toNat ≤ t.time.ft.toNat ∧ sameStacks s t ∧ sameScratch s t ∧
      ∀ p o, p < 16 → ((t.part p).owner o).serve.heldTo.all (fun x => t.time.ft.toNat < x.toNat) = true) ∧
  (∀ (s : State) (inst : BitVec 16) (b : BatchTable),
    (s.su.tables ++ s.su.next).find? (fun u => u.inst = inst && !s.su.written.contains (u.inst, u.stroke)) = some b →
    b.stroke.toNat ≤ s.su.doneWork.toNat + 2 →
    ∃ t, exec (.batchTableWrite inst) s = .next t ∧ (b.inst, b.stroke) ∈ t.su.written ∧ sameStacks s t ∧
      ∀ p a, p < s.label.variant.parts → s.batchAreas p b.inst = some a →
        (t.part p).sp.readN (a + b.stroke.toNat % 2 * (((s.instRec b.inst).map (·.areaBytes)).getD 0))
          (headerBytes b ++ b.rows.flatMap rowBytes).length = headerBytes b ++ b.rows.flatMap rowBytes) ∧
  (∀ (s : State) (b : BatchTable), (∀ u ∈ s.su.tables ++ s.su.next, ¬(u.inst = b.inst ∧ u.stroke = b.stroke)) → s.instNums.contains b.inst = true →
    s.ledInsts.contains b.inst = false →
    ∃ t, exec (.batchTableReceive b) s = .next t ∧ b ∈ t.su.tables ++ t.su.next ∧
      (s.su.begun = true → b.stroke = s.su.work → s.table b.inst = none → b ∈ t.su.tables))

/-- R91, R449, R243: a class 5 command may issue only once serving is over on its partition and its TIMEOUT ends by D; the job's stream parks when
serving is over and none of its commands runs; an owner stopped by an uncorrectable read issues nothing more for the instance, whose stroke has
failed. -/
def Obligations.OwnersAreGrantedParkedAndStopped : Prop :=
  (∀ (s : State) (i : Issue), i.part.toNat < s.label.variant.parts → s.job.phase = .running → i.prog = 2#2 → s.jobInst = some i.inst →
    ((s.part i.part.toNat).owner i.owner).job.headAt.isSome = true → ((s.part i.part.toNat).owner i.owner).parked = false →
    s.su.catchup = false → s.servingOver i.part.toNat = true → s.time.ft.toNat + 1000 * i.hdr.timeout.toNat ≤ s.dueAt s.su.work.toNat →
    ∃ t, exec (.class5Issue i) s = .next t ∧ t = { s with parts := t.parts } ∧
      (t.part i.part.toNat).owner i.owner = { (s.part i.part.toNat).owner i.owner with grant := true }) ∧
  (∀ (s : State) (i : Issue), i.part.toNat < s.label.variant.parts → s.dueAt s.su.work.toNat < s.time.ft.toNat + 1000 * i.hdr.timeout.toNat →
    exec (.class5Issue i) s = .next s) ∧
  (∀ (s : State) (p : BitVec 4) (o : Owner), p.toNat < s.label.variant.parts → (∃ n, s.jobInst = some n ∧ (s.stream p.toNat o n 2#2).isSome = true) →
    s.servingOver p.toNat = true → (∀ c ∈ (s.part p.toNat).allCmds, ¬(c.hdr.cls = 5#4 ∧ c.owner = o)) →
    ∃ t, exec (.jobStreamPark p o) s = .next t ∧ t = { s with parts := t.parts } ∧
      (t.part p.toNat).owner o = { (s.part p.toNat).owner o with parked := true, grant := false }) ∧
  (∀ (s : State) (p : BitVec 4) (o : Owner) (inst : BitVec 16), p.toNat < s.label.variant.parts → inst ∉ s.su.failed →
    (inst, s.su.work) ∉ s.su.restore → (inst, s.su.work) ∉ s.su.doomed →
    ∃ t, exec (.uncorrectableStrokeFail p o inst) s = .next t ∧ inst ∈ ((t.part p.toNat).owner o).stopped ∧ inst ∈ t.su.failed ∧
      (inst, s.su.work) ∈ t.su.restore ∧ sameScratch s t ∧ sameStacks s t)

/-- R176, R177, R183, R211: of the requests that have lost at a bank side for 1,024 cycles the one that has waited longer, or of two alike the earlier in
Table 7.3, is granted: the event is counted for the bank and its lost cycles for bank and class. A scratchpad word with one flipped bit is written back
as it is and counted; one with two is uncorrectable from then on. A codebook record that has come whole enters the codebook cache. -/
def Obligations.ScratchpadAndCodebookEvents : Prop :=
  (∀ (s : State) (p : BitVec 4) (b : BitVec 6) (side : BankSide) (rs : List Starved), p.toNat < s.label.variant.parts →
    (∀ r ∈ rs, r.waited.toNat < 1024) → exec (.arbitrationStarvation p b side rs) s = .next s) ∧
  (∀ (s : State) (p : BitVec 4) (b : BitVec 6) (side : BankSide) (rs : List Starved) (r : Starved), p.toNat < s.label.variant.parts → r ∈ rs →
    1024 ≤ r.waited.toNat → ∃ t g, exec (.arbitrationStarvation p b side rs) s = .next t ∧ g ∈ rs ∧ r.waited.toNat ≤ g.waited.toNat ∧
      (g.waited = r.waited → portRank g.port side ≤ portRank r.port side) ∧ sameStacks s t ∧ sameScratch s t ∧
      (∀ q, q ≠ p.toNat → t.part q = s.part q) ∧
      SMap.get (t.part p.toNat).starved b.toNat 0 = SMap.get (s.part p.toNat).starved b.toNat 0 + 1 ∧
      t.ctr ⟨0x0110, p.toNat, 0xFF, b.toNat * 4 + classNum (portClass g.port)⟩ =
        s.bumped ⟨0x0110, p.toNat, 0xFF, b.toNat * 4 + classNum (portClass g.port)⟩ g.waited.toNat) ∧
  (∀ (s : State) (p : BitVec 4) (a : BitVec 26), p.toNat < s.label.variant.parts → s.canonical →
    (∃ t, exec (.scratchpadCorrectionWriteback p ⟨a, false⟩) s = .next t ∧ t = { s with parts := t.parts } ∧ sameScratch s t ∧
      (∀ q, q ≠ p.toNat → t.part q = s.part q) ∧ (t.part p.toNat).bad = (s.part p.toNat).bad ∧
      (a.toNat / 8 ∉ (s.part p.toNat).bad → (t.part p.toNat).fixed = (s.part p.toNat).fixed + 1)) ∧
    ∃ t, exec (.scratchpadCorrectionWriteback p ⟨a, true⟩) s = .next t ∧ t = { s with parts := t.parts } ∧ sameScratch s t ∧
      (∀ q, q ≠ p.toNat → t.part q = s.part q) ∧ ∀ w, w ∈ (t.part p.toNat).bad ↔ w = a.toNat / 8 ∨ w ∈ (s.part p.toNat).bad) ∧
  (∀ (s : State) (p : BitVec 4) (a : GAddr) (f : Nat × SMap Granule), p.toNat < s.label.variant.parts →
    (s.part p.toNat).de.bookFetch.find? (fun f => f.1 = a.toNat) = some f → f.2 ≠ [] →
    (∀ r ∈ (s.part p.toNat).de.sendq ++ (s.part p.toNat).de.inflight, r.use ≠ .codebook a.toNat) →
    ∃ u : State, exec (.codebookFetchComplete p a) s = .next (u.runOn p.toNat) ∧ u = { s with parts := u.parts } ∧
      (u.part p.toNat).de.books.any (fun b => b.1 = a.toNat) = true ∧ sameScratch s u)

/-! ## Time (spec/02) -/

/-- R31, R33, R34, R35, Table 2.1: what a Sync of the selected grandmaster, in the plate's PTP domain and transport, does at the manager. A delay request
follows it. The 16th consecutive offset of at most 1 µs leaves ACQUIRING for LOCKED, which sets FT; in LOCKED an offset above 10 µs, outside the bounded
slew, leads to SUSPECT; HOLDOVER and SUSPECT lead back to LOCKED on the 16th consecutive offset of at most 10 µs, and HOLDOVER to SUSPECT on a larger one.
FT once set is never stepped, and its correction is at most 10 ppm, or as it was, or the frequency correction held. At a worker, deputy included, the
correction stands, and at one that is no deputy the time state too. In the second part: R31, R32, R35: an Announce of an accepted grandmaster enters the
selection, which runs over those heard within 3 of their intervals, and any other is ignored; the response to the last delay request gives half the round
trip as the path delay; without a Sync or an Announce of the selected grandmaster for 3 Announce intervals it is no longer selected, and a LOCKED manager
goes to HOLDOVER with its frequency correction; an offset above 10 µs for 60 s leads from SUSPECT to LOCKED with a slew of 10 ppm. -/
def Obligations.ManagerTimeFollowsPtp : Prop :=
  (
    ∀ (s : State) (m : PtpSync), (s.time.gm ≠ some m.gm ∨ s.ptpOurs m.domain m.transport = false → exec (.ptpSync m) s = .next s) ∧
      (s.time.gm = some m.gm → s.ptpOurs m.domain m.transport = true →
      let hall : Int := m.origin.toNat + s.time.pathDelay - m.arrival.toNat
      let off : Int := if s.time.ftSet then (s.time.ft.toNat : Int) - ((s.time.mono.toNat : Int) - m.arrival.toNat) - (m.origin.toNat + s.time.pathDelay)
        else hall - s.time.lastDiff
      ∃ t, exec (.ptpSync m) s = .next t ∧ t.time.lastSync = s.time.mono ∧ t.time.mono = s.time.mono ∧ sameStacks s t ∧ sameScratch s t ∧
        t.time.delayReq = some s.time.mono ∧ .ptpDelayReq m.gm s.time.mono ∈ t.out ∧
        (s.time.ftSet = true → t.time.ft = s.time.ft ∧ t.time.hallOffset = -off) ∧
        (s.isManager = false → t.time.slewPpb = s.time.slewPpb) ∧
        (t.time.slewPpb = s.time.slewPpb ∨ t.time.slewPpb = s.time.freqPpb ∨ t.time.slewPpb.natAbs ≤ 10000) ∧
        (s.isManager = false → s.isDeputy = false → t.time.master = s.time.master) ∧
        (s.isManager = true →
          (s.time.master = .acquiring → 15 ≤ s.time.masterRuns → off.natAbs ≤ 1000 → t.time.master = .locked ∧ t.time.ftSet = true) ∧
          (s.time.master = .acquiring → (s.time.masterRuns < 15 ∨ 1000 < off.natAbs) → t.time.master = .acquiring) ∧
          (s.time.master = .locked → s.time.slewing = false → 10000 < off.natAbs → t.time.master = .suspect ∧ t.time.slewPpb = s.time.freqPpb) ∧
          (s.time.master = .locked → (s.time.slewing = true ∨ off.natAbs ≤ 10000) → t.time.master = .locked) ∧
          (s.time.master = .holdover → 10000 < off.natAbs → t.time.master = .suspect) ∧
          (s.time.master = .holdover → 15 ≤ s.time.masterRuns → off.natAbs ≤ 10000 → t.time.master = .locked) ∧
          (s.time.master = .suspect → 15 ≤ s.time.masterRuns → off.natAbs ≤ 10000 → t.time.master = .locked)))) ∧
  (
    (∀ (s : State) (m : PtpAnnounce), m.gm ∈ s.domain.gms → s.ptpOurs m.domain m.transport = true → ∃ t, exec (.ptpAnnounce m) s = .next t ∧
      t.time.ft = s.time.ft ∧ sameStacks s t ∧ sameScratch s t ∧ ⟨m, s.time.mono⟩ ∈ t.time.seen ∧
      (∀ g ∈ t.time.seen, g = ⟨m, s.time.mono⟩ ∨ g ∈ s.time.live) ∧
      ∃ b ∈ t.time.seen, t.time.gm = some b.ann.gm ∧ t.time.lastAnn = b.at_ ∧ ∀ g ∈ t.time.seen, keyLt (annKey g.ann) (annKey b.ann) = false) ∧
    (∀ (s : State) (m : PtpAnnounce), m.gm ∉ s.domain.gms ∨ s.ptpOurs m.domain m.transport = false → exec (.ptpAnnounce m) s = .next s) ∧
    (∀ (s : State) (m : PtpDelay), s.time.gm = some m.gm → s.ptpOurs m.domain m.transport = true →
      (s.time.delayReq = some m.sent → exec (.ptpDelayResponse m) s = .next { s with time := { s.time with
        pathDelay := (((m.received.toNat : Int) - m.sent.toNat) + (s.time.pathDelay - s.time.lastDiff)) / 2, delayReq := none } }) ∧
      (s.time.delayReq ≠ some m.sent → exec (.ptpDelayResponse m) s = .next s)) ∧
    (∀ s : State, s.time.gm ≠ none → s.time.lastSync.toNat + 3 * s.annInterval ≤ s.time.mono.toNat →
      s.time.lastAnn.toNat + 3 * s.annInterval ≤ s.time.mono.toNat →
      ∃ t, exec .ptpLossTimeout s = .next t ∧ t.time.gm ≠ s.time.gm ∧ t.time.ft = s.time.ft ∧ t.time.suspectAt = none ∧
        (s.isManager = false → t.time.slewPpb = s.time.slewPpb) ∧
        (s.isManager = true → s.time.master = .locked → t.time.master = .holdover ∧ t.time.slewPpb = s.time.freqPpb)) ∧
    (∀ (s : State) (t0 : Word64), s.time.master = .suspect → s.time.suspectAt = some t0 → t0.toNat + 60000000000 ≤ s.time.mono.toNat →
      ∃ t, exec .suspectTimeout s = .next t ∧ t.time.master = .locked ∧ t.time.slewing = true ∧
        (s.isManager = true → t.time.slewPpb.natAbs = 10000) ∧ (s.isManager = false → t.time.slewPpb = s.time.slewPpb)))

/-- R37, R38, R40, R41, R53: a time message on the upstream port sets a worker's FT once, after its ports have trained, and afterwards only slews it, at no
more than 20 ppm, and goes on by every other domain port with its correction; an offset above 10 µs leads to LOST, and the 8th consecutive offset above
the bound from ALIGNED to OFF-PLAN; a message on another port is discarded. The manager sends one from each domain port, 125 µs after the last at the
earliest, every port that is up starts a delay exchange, a far end's request is answered, and an exchange gives half of the round trip less the
residence. In the second part: R41, R42, R43: 1 ms without a time message leads an ALIGNED worker to OFF-PLAN, but not within 8 ms of a succession, and
1 s leads any worker to LOST; the manager releases the slots of a module that reports OFF-PLAN from the next boundary on, and acknowledges the same
module's return, its slots given back with it; an acknowledged return waits for the next boundary. -/
def Obligations.WorkersFollowFabricTime : Prop :=
  (
    (∀ (s : State) (m : TimeMsg), m.port.toNat < s.label.variant.ports → s.upstream = some m.port.toNat →
      s.time.ftSet = true ∨ s.portsTrained = true →
      let corr := m.correction.toNat + (s.port m.port.toNat).delayNs * 65536
      let held := s.time.mono.toNat - m.arrival.toNat
      let off : Int := if s.time.ftSet then (s.time.ft.toNat : Int) - held - (m.origin.toNat + corr / 65536 : Nat) else 0
      ∃ t, exec (.time m) s = .next t ∧ t.time.ftSet = true ∧ t.time.lastTime = s.time.mono ∧ t.time.ftOffset = off ∧
        (s.time.ftSet = true → t.time.ft = s.time.ft) ∧
        (s.time.ftSet = false → t.time.ft = BitVec.ofNat 64 (m.origin.toNat + corr / 65536 + held)) ∧ t.time.slewPpb.natAbs ≤ 20000 ∧
        (t.time.worker ≠ .lost → ∀ q ∈ s.vc3Ports, q ≠ m.port.toNat →
          .timeMsg q m.origin (BitVec.ofNat 56 (corr + held * 65536)) ∈ t.out) ∧
        (10000 < off.natAbs → t.time.worker = .lost) ∧
        (s.time.worker = .aligned → s.alignBound < off.natAbs → off.natAbs ≤ 10000 → 7 ≤ s.time.awayRuns → t.time.worker = .offPlan) ∧
        (s.time.worker = .aligned → off.natAbs ≤ s.alignBound → t.time.worker = .aligned)) ∧
    (∀ (s : State) (m : TimeMsg), m.port.toNat < s.label.variant.ports →
      s.upstream ≠ some m.port.toNat ∨ (s.time.ftSet = false ∧ s.portsTrained = false) → exec (.time m) s = .next s) ∧
    (∀ s : State, s.isManager = true → s.time.ftSet = true → ∃ t, exec .timeMessageSend s = .next t ∧ t = { s with time := t.time, out := t.out } ∧
      t.time.timeSent = some t.time.mono ∧ (∀ p ∈ s.vc3Ports, .timeMsg p t.time.ft 0#56 ∈ t.out) ∧
      (∀ w, s.time.timeSent = some w → w.toNat + 125000 < 2 ^ 64 → w.toNat + 125000 ≤ t.time.mono.toNat ∧
        (w.toNat + 125000 ≤ s.time.mono.toNat → t.time.ft = s.time.ft))) ∧
    (∀ s : State, s.time.worker ≠ .lost → exec .delayExchangeSend s = .next { s with out :=
      (((List.range s.label.variant.ports).filter fun p => (s.port p).phase = .up).map fun p => Out.delayReq p s.time.mono).reverse ++ s.out }) ∧
    (∀ (s : State) (p : BitVec 5) (t1 t2 : BitVec 64), p.toNat < s.label.variant.ports → s.time.worker ≠ .lost →
      exec (.delay p (.ask t1 t2)) s = .next { s with out := .delayAns p.toNat ⟨t1, t2, s.time.mono, 0#64⟩ :: s.out }) ∧
    (∀ (s : State) (p : BitVec 5) (d : DelayStamps), p.toNat < s.label.variant.ports → ∃ t, exec (.delay p (.answer d)) s = .next t ∧
      t = { s with fab := t.fab } ∧ (t.port p.toNat).delayNs = ((d.t4.toNat - d.t1.toNat) - (d.t3.toNat - d.t2.toNat)) / 2 ∧
      ∀ q, q ≠ p.toNat → t.port q = s.port q)) ∧
  (
    (∀ s : State, s.isManager = false → s.time.ftSet = true → 1000000000 ≤ s.time.mono.toNat - s.time.lastTime.toNat →
      ∃ t, exec .timeMessageLoss s = .next t ∧ t.time.worker = .lost) ∧
    (∀ s : State, s.isManager = false → s.time.ftSet = true → s.time.worker = .aligned → 1000000 ≤ s.time.mono.toNat - s.time.lastTime.toNat →
      s.time.mono.toNat - s.time.lastTime.toNat < 1000000000 →
      (s.alignBound = 10 → ∃ t, exec .timeMessageLoss s = .next t ∧ t.time.worker = .offPlan ∧ t.time.offSince = some s.time.stroke) ∧
      (s.alignBound = 20 → exec .timeMessageLoss s = .next s)) ∧
    (∀ (s : State) (m : BitVec 10) (n : Stroke), s.isManager = true → (s.info m).offPlan ≠ some n →
      ∃ t, exec (.offPlanNotice m n) s = .next t ∧ (t.info m).offPlan = some n ∧ m.toNat ∈ t.su.pendFree ∧ t.su.freed = s.su.freed ∧
        ∀ j < 15, (s.linkEntry m.toNat j).state = 1#2 →
          ∃ d ∈ t.mem.linkNews, d.module = m ∧ d.port = BitVec.ofNat 5 j ∧ d.slots = false) ∧
    (∀ (s : State) (m : BitVec 10) (n : Stroke), s.isManager = true → (s.info m).offPlan = some n → s.time.worker ≠ .lost →
      ∃ t, exec (.offPlanNotice m n) s = .next t ∧ (t.info m).offPlan = some n ∧ m.toNat ∈ t.su.pendBack ∧ t.out = Out.mgmt m .offPlanAck :: s.out ∧
        ∀ j < 15, (s.linkEntry m.toNat j).state = 1#2 → (s.linkEntry m.toNat j).width = 0#2 →
          ∃ d ∈ t.mem.linkNews, d.module = m ∧ d.port = BitVec.ofNat 5 j ∧ d.slots = true) ∧
    (∀ s : State, s.time.worker = .offPlan → 64 ≤ s.time.nearRuns → exec .offPlanAck s = .next { s with time := { s.time with offAcked := true } }) ∧
    (∀ (s : State) (r : TwinStateRec), s.twinned = true → s.twinUp = true → ∃ t, exec (.twinState r) s = .next t ∧
      t.twin.twinLag = r.lag ∧ t.twin.twinMod = r.modState ∧ t.twin.twinPair = r.pairState ∧ t.twin.twinDiff = s.twinOffset r.ft ∧
      t.twin.diverged = decide (s.twinBound < (s.twinOffset r.ft).natAbs) ∧ sameStacks s t ∧ sameScratch s t))

/-! ## Memory-space requests and packets (spec/10, spec/12) -/

/-- R217, R252, R264, R281: at the plain home of a block, RD in LSEQ order answers OK with the bytes that the frame holds and changes no byte; WR leaves its
payload from its address on; MWR replaces the bytes that its mask selects; ATOM answers the old value and leaves its operation's result. No other byte of
the stacks changes, and no scratchpad byte. In the second part: R244, R252, R253, R312, R439: a request that its home cannot serve is answered with its
code and changes no byte of the stacks and no scratchpad: ADDRESS_ERROR for a bad layout or form, HOME_MOVED with the home's number where the
block lies elsewhere, UNCORRECTABLE for a fenced block, HOME_LOST by a module that has left the domain. A held module answers nothing, a request for
another module goes on, and one out of LSEQ order is discarded with a NACK. -/
def Obligations.HomeServesOrRefuses : Prop :=
  (
    ∀ (s : State) (p : Packet) (a : Arrival) (frame : Nat), s.canonical → s.inOrder a = true → s.atHome p frame →
      let base := homeByte p frame
      let b := inbOf a p
      (p.type = 1#8 → ∃ (u : State) (gs : List Granule), exec (.rd ⟨p, a⟩ []) s = .next ((u.leaveBuffer b).sendPacket (p.reply s.me 0 0 gs)).state ∧
        u.mem = s.mem ∧ u.parts = s.parts ∧ gs.length = p.count ∧ gs.flatMap granuleBytes = s.mem.mem.readN base (128 * p.count)) ∧
      (p.type = 2#8 → ∃ u : State, exec (.wr ⟨p, a⟩) s = .next ((u.leaveBuffer b).sendPacket (p.reply s.me 0 0 [])).state ∧ u.parts = s.parts ∧
        storedAt s.mem.mem u.mem.mem base (p.payload.flatMap granuleBytes)) ∧
      (p.type = 3#8 → ∀ d m, p.payload = [d, m] → ∃ u : State,
        exec (.mwr ⟨p, a⟩ []) s = .next ((u.leaveBuffer b).sendPacket (p.reply s.me 0 0 [])).state ∧ u.parts = s.parts ∧
        (∀ k, k < 128 → u.mem.mem.read (base + k) = if m.getLsbD k then d.extractLsb' (8 * k) 8 else s.mem.mem.read (base + k)) ∧
        ∀ a, a < base ∨ base + 128 ≤ a → u.mem.mem.read a = s.mem.mem.read a) ∧
      (p.type = 4#8 → ∀ op, atomOf p.subop = some op → ∃ u : State,
        let old := s.mem.mem.readNat base op.size
        exec (.atom ⟨p, a⟩ []) s = .next ((u.leaveBuffer b).sendPacket (p.reply s.me 0 old [])).state ∧ u.parts = s.parts ∧
        storedAt s.mem.mem u.mem.mem base (leBytes op.size (op.apply (BitVec.ofNat 64 old) p.value p.compare).toNat))) ∧
  (
    ∀ (s : State) (p : Packet) (a : Arrival), ∀ c ∈ [Instr.rd ⟨p, a⟩ [], Instr.wr ⟨p, a⟩, Instr.mwr ⟨p, a⟩ [], Instr.atom ⟨p, a⟩ []],
      let here := p.dst = s.me ∧ s.boot.standing ≠ .detached ∧ s.boot.standing ≠ .heldVisible ∧ gaSpace p.addr = 0 ∧ p.type ≠ 5#8
      let answers (status arg : Nat) := ∃ u : State, exec c s = .next (u.sendPacket (p.reply s.me status arg [])).state ∧ u.mem = s.mem ∧
        u.parts = s.parts
      let good := gaLayoutOk p.addr = true ∧ p.memOk = true ∧ (p.type ≠ 1#8 → s.useOf (gaBlock p.addr) ≠ 6)
      (s.inOrder a = false → exec c s = .next (s.outOfOrder a)) ∧
      (s.inOrder a = true →
        (here → gaLayoutOk p.addr = false ∨ p.memOk = false → answers 2 0) ∧
        (here → good → s.isCopyWrite p = false → ∀ m f, s.homeOf (gaBlock p.addr) = some (m, f) → m ≠ s.me → answers 1 (m.toNat * 2 ^ 64)) ∧
        (here → good → s.isCopyWrite p = false → ∀ f, s.homeOf (gaBlock p.addr) = some (s.me, f) → s.switching (gaBlock p.addr) = false →
          s.blockHeld (gaBlock p.addr) f = false → gaBlock p.addr ∈ s.mem.fenced → answers 4 0) ∧
        (p.dst = s.me → s.boot.standing = .detached → answers 5 0) ∧
        (p.dst = s.me → s.boot.standing = .heldVisible → exec c s = .next (s.arriveGone p a)) ∧
        (p.dst ≠ s.me → exec c s = .next ((s.arrive p a).forward p (inbOf a p)))))

/-- R78, R253, R270, R305 to R308: packets that end at this module. A SIG is applied to its partition's semaphores and answered OK, or answered BUSY with
the buffer of parked signals full; a response meets the request of its TXN, generation and address and gives back its TXN, what waited for its link
die's count is sent, and one of a stale generation is discarded and counted; a response to a write of a migration's transfer counts its granules; PLAN
and LATE write their granules to the scratchpad that they name and no other byte. -/
def Obligations.PacketsReachTheirUnit : Prop :=
  (∀ (s : State) (p : Packet) (a : Arrival), s.inOrder a = true → p.dst = s.me → s.boot.standing ≠ .detached → s.boot.standing ≠ .heldVisible →
    gaSpace p.addr = 2 → gaLayoutOk p.addr = true → gaModule p.addr = s.me.toNat → p.type = 5#8 → gaPart p.addr < s.label.variant.parts →
    (s.part (gaPart p.addr)).reset = none →
    ((s.part (gaPart p.addr)).signal s.su.work p.signal ≠ .full → ∃ u : State,
      exec (.sig ⟨p, a⟩) s = .next ((u.leaveBuffer (inbOf a p)).sendPacket (p.reply s.me 0 0 [])).state ∧
      u.parts = (s.signal (gaPart p.addr) p.signal).parts ∧ u.mem = s.mem) ∧
    ((s.part (gaPart p.addr)).signal s.su.work p.signal = .full → ∃ u : State,
      exec (.sig ⟨p, a⟩) s = .next ((u.leaveBuffer (inbOf a p)).sendPacket (p.reply s.me 6 0 [])).state ∧ u.parts = s.parts ∧ u.mem = s.mem)) ∧
  (∀ (s : State) (p : Packet) (a : Arrival) (errs : List MemErr), s.inOrder a = true → p.dst = s.me →
    (s.isCopyResp p = true → p.status = 0#4 → ∃ t, exec (.resp ⟨p, a, errs⟩) s = .next t ∧ t.parts = s.parts ∧ sameStacks s t ∧
      t.migOf (gaBlock p.addr) = (s.migOf (gaBlock p.addr)).map fun m => { m with moved := m.moved + 8 }) ∧
    (s.isCopyResp p = false → p.dpart.toNat < s.label.variant.parts →
      let k := p.dpart.toNat
      let x := s.part k
      (∀ r, p.gen = x.de.fgen → x.answered p = some r → ∃ u : State, u.part k = x.land r ∧ sameStacks s u ∧ (∀ q, q ≠ k → u.part q = s.part q) ∧
        exec (.resp ⟨p, a, errs⟩) s = .next (let v := (u.deAnswer k r p).runOn k; if r.ld.isSome then v.pumpAll else v)) ∧
      (p.gen ≠ x.de.fgen → ∃ t, exec (.resp ⟨p, a, errs⟩) s = .next t ∧ t.parts = s.parts ∧ sameStacks s t ∧
        t.ctr ⟨0x0124, k, deCode, 0⟩ = s.bumped ⟨0x0124, k, deCode, 0⟩ 1))) ∧
  (∀ (s : State) (p : Packet) (a : Arrival), ∀ c ∈ [Instr.plan ⟨p, a⟩, Instr.late ⟨p, a⟩], let k := gaPart p.addr
    s.canonical → s.inOrder a = true → p.dst = s.me → gaSpace p.addr = 1 → gaLayoutOk p.addr = true → k < s.label.variant.parts →
    gaSpOff p.addr + 128 * p.payload.length ≤ spBytes → p.addr.toNat % 128 = 0 → (s.part k).reset = none →
    s.kindZero k (gaSpOff p.addr) (128 * p.payload.length) = false →
    ∃ t, exec c s = .next t ∧ sameStacks s t ∧ storedAt (s.part k).sp (t.part k).sp (gaSpOff p.addr) (p.payload.flatMap granuleBytes) ∧
      ∀ q, q ≠ k → t.part q = s.part q)

/-- R51 to R54, R296, R298, R303, R304, R306, R309, R399: packets in transit. A VC0 packet waits for its slot at the port of its plan, or of its route;
another is put on its outgoing port with one hop more, and keeps its receive buffer until it leaves; a sixth hop is discarded, and a request without a
route is answered HOME_LOST; a reserved type and a packet too old are discarded and counted. At its first hop a planned transfer leaves in its slot, from
40 ns after its start, when its data is ready and it fits, with SLOT_END behind it, and is late otherwise; a late one travels on VC1 when it is ready.
The stacks and the scratchpads keep their bytes. In the second part: R261, R302, R427: a write that waited in the wait store, alone there and held for
want of an entry, is applied when its command tries it again: it waits no longer, its payload stands in the frame, and no other byte of the stacks
changes. -/
def Obligations.TransitAndWaitingKeepTheMemories : Prop :=
  (
    (∀ (s : State) (p : Packet) (a : Arrival), p.dst ≠ s.me → s.inOrder a = true →
      let kept (t : State) := t.mem = s.mem ∧ t.parts = s.parts
      (p.vc = 0#2 → ∀ port, (match (s.planRec (xferArg p.arg).plan.toNat).bind s.planHop with
          | some h => port = h.1.port.toNat
          | none => ∃ j, s.route p.src.toNat p.dst.toNat = some j ∧ port = s.physicalFor j p) →
        ∃ t, exec (.packetForward ⟨p, a⟩) s = .next t ∧ t.fab.vc0 = s.fab.vc0 ++ [⟨port, p, none, s.time.mono⟩] ∧ kept t) ∧
      (p.vc ≠ 0#2 → p.hops.toNat < 5 → s.time.worker ≠ .lost →
        (∀ j, s.unreachable p.dst.toNat = false → s.route p.src.toNat p.dst.toNat (some (s.logicalOf a.port.toNat)) = some j → ∃ u : State,
          exec (.packetForward ⟨p, a⟩) s = .next (u.putPacket ⟨s.physicalFor j p, { p with hops := p.hops + 1#3 }, inbOf a p, s.time.mono⟩) ∧ kept u) ∧
        (s.unreachable p.dst.toNat = true ∨ s.route p.src.toNat p.dst.toNat (some (s.logicalOf a.port.toNat)) = none → ∃ u : State,
          exec (.packetForward ⟨p, a⟩) s = .next (u.answerLost p) ∧ kept u ∧
            (p.src ≠ s.me → u.answerLost p = if p.type.toNat ≤ 5 then (u.sendPacket (p.reply s.me 5 0 [])).state else u))) ∧
      (p.vc ≠ 0#2 → 5 ≤ p.hops.toNat → ∃ t, exec (.packetForward ⟨p, a⟩) s = .next t ∧ kept t ∧
        t.ctr (modCtr 0x0046 0) = s.bumped (modCtr 0x0046 0) 1)) ∧
    (∀ (s : State) (p : Packet) (a : Arrival), s.inOrder a = true → ∃ t, exec (.reservedPacketType ⟨p, a⟩) s = .next t ∧ t.mem = s.mem ∧
      t.parts = s.parts ∧ t.ctr (modCtr 0x0046 2) = s.bumped (modCtr 0x0046 2) 1) ∧
    (∀ (s : State) (ld : BitVec 3) (p : Packet), ld.toNat < s.label.variant.linkDies →
      let held (q : Transit) := q.port / 4 = ld.toNat ∧ q.pkt = p
      ((∃ q ∈ s.fab.waiting, held q) → ∃ t, exec (.packetAgeExpiry ld p) s = .next t ∧ t.mem = s.mem ∧ t.parts = s.parts ∧
        t.fab.waiting.Sublist s.fab.waiting ∧ t.fab.waiting.length + 1 = s.fab.waiting.length ∧
        t.ctr (modCtr 0x0046 1) = s.bumped (modCtr 0x0046 1) 1) ∧
      ((∀ q ∈ s.fab.waiting, ¬held q) → (∃ q ∈ s.fab.vc0, held q) → ∃ t, exec (.packetAgeExpiry ld p) s = .next t ∧ t.mem = s.mem ∧
        t.parts = s.parts ∧ t.fab.vc0.Sublist s.fab.vc0 ∧ t.fab.vc0.length + 1 = s.fab.vc0.length ∧
        t.ctr (modCtr 0x0046 1) = s.bumped (modCtr 0x0046 1) 1)) ∧
    (∀ (s : State) (n : BitVec 16) (d : BitVec 24) (r : PlanRec) (h : HopRec), s.planRec n.toNat = some r → s.planHop r = some (h, 0) →
      (s.slotsOn h.port.toNat && s.planReady r s.time.stroke) = false →
        exec (.slotStart ⟨n, d⟩) s = .next { s.reach (s.slotAt s.time.stroke.toNat h.slot.toNat) with
          mem := { s.mem with lates := s.mem.lates ++ [(n.toNat, s.time.stroke)] } }) ∧
    (∀ (s : State) (n : BitVec 16) (r : PlanRec) (h : HopRec), s.planRec n.toNat = some r → s.planHop r = some (h, 0) → s.time.ftSet = true →
      s.slotsOn h.port.toNat = true → s.planReady r s.time.stroke = true →
      let ps := s.planPackets n.toNat r s.time.stroke 0x10 0
      let start := s.slotAt s.time.stroke.toNat h.slot.toNat
      (∃ t, exec (.slotStart ⟨n, 0#24⟩) s = .next t ∧ t.mem = s.mem ∧ t.parts = s.parts ∧ .ctl h.port.toNat .slotEnd ∈ t.out ∧
        (start + 40 < 2 ^ 64 → start + 40 ≤ t.time.ft.toNat) ∧
        (s.time.ft.toNat ≤ start + 40 → start + 1000 * s.domain.slotLen.toNat < 2 ^ 64 →
          (ps.map (s.packetNs h.port.toNat)).sum + 80 ≤ 1000 * s.domain.slotLen.toNat →
          ((s.port h.port.toNat).replay.map fun r => s.packetBytes r.pkt).sum + (ps.map s.packetBytes).sum ≤ 65536 →
          ∀ p ∈ ps, ∃ tail, Out.packet h.port.toNat { p with hops := 1#3 } tail ∈ t.out))) ∧
    (∀ (s : State) (n : BitVec 16) (r : PlanRec) (l : Nat × Stroke), s.planRec n.toNat = some r → 1 ≤ r.total.toNat →
      s.mem.lates.find? (fun l => l.1 = n.toNat && s.planReady r l.2) = some l → ∃ t, exec (.lateTransfer n) s = .next t ∧
        t.mem = { s.mem with lates := s.mem.lates.erase l } ∧ t.parts = s.parts ∧ t.ctr (modCtr 0x0006 0) = s.bumped (modCtr 0x0006 0) 1)) ∧
  (
    ∀ (s : State) (w : Waiting) (ld : BitVec 3) (frame : Nat), s.canonical → s.mem.waits = [w] → w.inBuf = false → w.ld = some ld.toNat →
      ld.toNat < s.label.variant.linkDies → w.pkt.type = 2#8 →
      ({ s with mem := { s.mem with waits := [] } } : State).atHome w.pkt frame →
      ∀ p ∈ [(Instr.waitStoreRelease ld, w.why), (.freezeQueueSpace, .freezeFull), (.touchBufferSpace, .touchFull)], p.2 = w.why →
        ∃ t, exec p.1 s = .next t ∧ t.mem.waits = [] ∧ t.parts = s.parts ∧
          storedAt s.mem.mem t.mem.mem (homeByte w.pkt frame) (w.pkt.payload.flatMap granuleBytes))

/-- R220, R221, R227, R228, R231, R236, R239, R240, R241, R244, R245: events at the stacks. The lane that at least two of four pattern reads name is
marked, a second lane or two at once lose the subchannel; at most 8 refreshes are postponed; a reading sets its stack's band, and a new band the
refresh interval and burst cap of its subchannels; an overdue retraining raises an alarm and nothing else; a read counts what it corrects and what it
cannot; a scrub fences the block of a granule that it cannot read; a fenced block is rewritten whole from its source; an evacuation waits for its own
vacated blocks, then copies granule by granule, a granule that cannot be read as zeros with its block fenced, and ends with the subchannel out of
service. A lost subchannel leads to a device reset. -/
def Obligations.StackEventsFollowTheirRules : Prop :=
  (∀ (s : State) (g : BitVec 10) (reads : List (BitVec 12)), g.toNat < 48 * s.label.variant.stacks →
    (∀ l : Nat, lanesOf (laneVote reads) = [l] →
      ((s.sub g.toNat).marked = none → ∃ t : State, exec (.laneCheck g reads) s = .next t.settleLost ∧
        (t.sub g.toNat).marked = some (BitVec.ofNat 4 l) ∧ sameStacks s t ∧ sameScratch s t) ∧
      ∀ m, (s.sub g.toNat).marked = some m → exec (.laneCheck g reads) s = .next (if m.toNat = l then s.settleLost else (s.loseSub g.toNat).resetDevice)) ∧
    (2 ≤ (lanesOf (laneVote reads)).length → exec (.laneCheck g reads) s = .next (s.loseSub g.toNat).resetDevice) ∧
    ∀ l : Fin 12, l.val ∈ lanesOf (laneVote reads) ↔ 2 ≤ (reads.take 4).countP fun r => r.getLsbD l.val) ∧
  (∀ (s : State) (g : BitVec 10), g.toNat < 48 * s.label.variant.stacks → ∃ t, exec (.refresh g) s = .next t ∧
    (t.sub g.toNat).postponed ≤ 8 ∧ ((s.sub g.toNat).postponed = 8 → (t.sub g.toNat).postponed = 0) ∧ sameStacks s t ∧ sameScratch s t) ∧
  (∀ (s : State) (temps : List Int), ∃ t, exec (.stackTemperatureRead temps) s = .next t ∧ sameStacks s t ∧ sameScratch s t ∧
    ∀ k c, temps[k]? = some c → k < s.label.variant.stacks → (SMap.get s.mem.stackSt k ⟨0, 0⟩).band ≤ 3 →
      let b := (SMap.get t.mem.stackSt k ⟨0, 0⟩).band
      (SMap.get t.mem.stackSt k ⟨0, 0⟩).celsius = c ∧ (105 ≤ c → b = 3) ∧ (c ≤ 82 → b = 0) ∧ (85 ≤ c → 1 ≤ b) ∧ (95 ≤ c → 2 ≤ b) ∧ b ≤ 3 ∧
      (b ≠ (SMap.get s.mem.stackSt k ⟨0, 0⟩).band → ∀ i, i < 48 →
        (t.sub (48 * k + i)).refreshNs = bandRefresh b ∧ (t.sub (48 * k + i)).burstCap = bandCap b)) ∧
  (∀ (s : State) (g : BitVec 10), g.toNat < 48 * s.label.variant.stacks → 60000000000 ≤ s.time.mono.toNat - (s.sub g.toNat).retrained.toNat →
    exec (.retrainOverdue g) s = .next (s.alarm (devNotice 0x0B (stackDie (g.toNat / 48)) (g.toNat % 48) g.toNat))) ∧
  (∀ (s : State) (pl : Place) (data d : List Byte) (n : BurstNoise),
    let r := readBurst ((s.sub (s.subOf pl)).marked.map BitVec.toNat) data n.first.toNat n.second.toNat (laneVote n.lanes)
    let t := (s.readBurstAt pl data n).1
    sameStacks s t ∧ (r = .corrected d → (s.readBurstAt pl data n).2 = some d ∧ t = { s with obs := t.obs } ∧
        t.ctr (modCtr 0x0030 (s.subOf pl)) = s.bumped (modCtr 0x0030 (s.subOf pl)) 1) ∧
      (r = .bad ∨ r = .rowFault ∨ r = .lost → (s.readBurstAt pl data n).2 = none ∧
        t.ctr (modCtr 0x0032 (s.subOf pl)) = s.bumped (modCtr 0x0032 (s.subOf pl)) 1)) ∧
  (∀ (s : State) (f : BitVec 20) (n : BitVec 14) (noise : ReadNoise),
    let r := s.readGranule f.toNat n.toNat noise 0
    (∀ d, r.2 = some d → exec (.patrolScrub f n noise) s = .next r.1.settleLost) ∧
    ∀ b, r.2 = none → s.blockOfFrame f.toNat = some b → ∃ t : State, exec (.patrolScrub f n noise) s = .next t.settleLost ∧ b ∈ t.mem.fenced ∧
      b ∈ t.mem.scrubBad ∧ sameStacks s t) ∧
  (∀ (s : State) (b : BitVec 32) (f : Nat), s.canonical → b.toNat ∈ s.mem.fenced → s.homeOf b.toNat = some (s.me, f) → s.mem.waits = [] →
    ∃ t, exec (.fenceLift b) s = .next t ∧ b.toNat ∉ t.mem.fenced ∧ t.parts = s.parts ∧
      storedAt s.mem.mem t.mem.mem (f * blockBytes) (padTo blockBytes 0#8 (s.sourceOf b.toNat))) ∧
  (∀ (s : State) (p : BitVec 4) (m : MapOut), p.toNat < s.label.variant.parts → (s.part p.toNat).evacuation = some m → (s.part p.toNat).reset = none →
    (∀ errs, s.vacatedBlocks p.toNat = [] → s.frozenOn p.toNat = false →
      exec (.evacuationCopy ⟨p, errs⟩) s = .next ((s.noteErrs errs).modMapOut p.toNat m.sub fun m => { m with ready := true })) ∧
    (∀ errs, s.vacatedBlocks p.toNat ≠ [] → exec (.evacuationCopy ⟨p, errs⟩) s = .next s) ∧
    (m.ready = true → s.canonical → s.mem.waits = [] → ∃ t : State, exec (.evacuationGranuleAck p) s = .next t.settleLost ∧
      (s.granuleOn p.toNat m.sub m.copied = none → sameStacks s t) ∧
      (∀ f g, s.granuleOn p.toNat m.sub m.copied = some (f, g) →
        let r := s.readGranule f g [] 0
        storedAt s.mem.mem t.mem.mem (f * blockBytes + g * 128) (r.2.getD (List.replicate 128 0#8)) ∧
        (r.2 = none → ∀ b, s.blockOfFrame f = some b → b ∈ t.mem.fenced)) ∧
      (m.copied + 1 < subGranules → ∃ n ∈ (t.part p.toNat).mapOuts, n.sub = m.sub ∧ n.copied = m.copied + 1) ∧
      (subGranules ≤ m.copied + 1 → t.ctr (modCtr 0x0034 (subGlobal s.label.variant p.toNat m.sub)) = 2 ∧
        ∃ n ∈ (t.part p.toNat).mapOuts, n.sub = m.sub ∧ n.out = true)))

/-! ## Links (spec/12, spec/20) -/

/-- R300, R304, R312, R313, R319, Table 12.8: the control words. IDLE changes nothing; ACK takes the acknowledged packet and those before it out of the
replay buffer; NACK sends every later packet again, in order, each under its LSEQ and a new count; CREDIT brings the cumulative credits of its VC and
hop class up to date (a count that wraps at 2^32 is the model's reading: notes/assumptions/65.md); SLOT_END ends the far end's slot; RETRAIN makes
the port train again; KEYSWAP brings the next key of the incoming direction into use. After ACK and CREDIT what waited is sent as far as it may;
stacks and partitions keep their contents. -/
def Obligations.ControlWordsTakeEffect : Prop :=
  ∀ (s : State) (port : BitVec 5), port.toNat < s.label.variant.ports →
    let p := port.toNat
    exec (.idle port) s = .next s ∧
    (∀ (q : BitVec 12) (a b : List Replay) (r : Replay), (s.port p).replay = a ++ r :: b → r.lseq = q → (∀ x ∈ a, x.lseq ≠ q) →
      (∃ u : State, exec (.controlAck port q) s = .next u.drainWaiting ∧ u = { s with fab := u.fab } ∧ u.port p = { s.port p with replay := b } ∧
        u.fab.waiting = s.fab.waiting ∧ ∀ k, k ≠ p → u.port k = s.port k) ∧
      (∃ (t : State) (tails : List LinkTail), exec (.controlNack port q) s = .next t ∧ t.mem = s.mem ∧ t.parts = s.parts ∧
        (t.port p).replay.map (·.pkt) = b.map (·.pkt) ∧ (t.port p).keyCount = (s.port p).keyCount + b.length ∧
        tails.map (·.lseq) = b.map (·.lseq) ∧ t.out = (List.zipWith (fun r x => Out.packet p r.pkt x) b tails).reverse ++ s.out)) ∧
    (∀ (vc : BitVec 2) (hop : BitVec 3) (n : BitVec 32), ∃ u : State, exec (.credit port vc hop n) s = .next u.drainWaiting ∧ u = { s with fab := u.fab } ∧
      let old := SMap.get (s.port p).granted (vcKey vc.toNat hop.toNat) 0
      let new := SMap.get (u.port p).granted (vcKey vc.toNat hop.toNat) 0
      ∀ d : Nat, d < 2 ^ 31 → old < 2 ^ 32 → n.toNat = (old + d) % 2 ^ 32 → new = n.toNat) ∧
    (∃ t, exec (.slotEnd port) s = .next t ∧ t = { s with fab := t.fab } ∧ t.port p = { s.port p with slotEnded := true }) ∧
    (∃ t, exec (.retrain port) s = .next t ∧ t = { s with fab := t.fab } ∧ (t.port p).phase = .detect ∧ (t.port p).replay = (s.port p).replay) ∧
    (∀ k, (s.port p).exch.bind (·.keys) = some k → ∃ t, exec (.keyswap port) s = .next t ∧ t = { s with fab := t.fab } ∧
      (t.port p).keyIn = some k.2 ∧ (t.port p).keyOut = (s.port p).keyOut)

/-- R312, R313, R316, R320: faults of a port. A failed CRC or tag is counted and answered with a NACK of the last packet in order; a packet replayed 8
times, and a degraded lane, make the port train again, the lane left out; a lost lock, and a training state past its limit, which is reported, take
the port down; 8 tag failures within a second hold it down until the next start. Stacks and partitions keep their contents, requests of this
module's own that are rerouted aside. In the second part: R295, R313 to R315, Tables 12.9, 12.10: training passes DETECT, EQUALISE (not in a
retrain), ALIGN, whose blocks leave, CHECK and DELAY; one that finds no fault brings the port up, without link encryption, at the greatest of the
widths 4, 2 and 1 that its good lanes allow, on the lowest-numbered of them; with encryption the port goes on to the key exchange. A fault takes it
down, no good lane takes it down, a port held down does not train, an unused one is noted only, and one that is down trains again 10 s after it went
down. -/
def Obligations.PortsTrainAndGoDown : Prop :=
  (
    ∀ (s : State) (port : BitVec 5), port.toNat < s.label.variant.ports →
      let p := port.toNat
      let same (t : State) := t.mem = s.mem ∧ t.parts = s.parts
      let away := (∀ r ∈ (s.port p).replay, r.pkt.src ≠ s.me) ∧ ∀ w ∈ s.fab.waiting, w.port = p → w.pkt.src ≠ s.me
      (∀ tag, ∃ t, exec (.linkCrcFailure port tag) s = .next t ∧ same t ∧ t.out = .ctl p (.nack (s.port p).rxSeq) :: s.out ∧
        t.ctr ⟨0x0042, 0xFF, 0xFF, p⟩ = s.bumped ⟨0x0042, 0xFF, 0xFF, p⟩ 1) ∧
      ((∃ r ∈ (s.port p).replay, 8 ≤ r.replays) → ∃ t, exec (.replayLimit port) s = .next t ∧ same t ∧ (t.port p).phase = .detect ∧
        (t.port p).replay.map (·.pkt) = (s.port p).replay.map (·.pkt) ∧ ∀ r ∈ (t.port p).replay, r.replays = 0) ∧
      ((∀ r ∈ (s.port p).replay, r.replays < 8) → exec (.replayLimit port) s = .next s) ∧
      (∀ lane, ∃ t, exec (.laneDegraded port lane) s = .next t ∧ same t ∧ (t.port p).phase = .detect ∧
        (t.port p).dropped = (s.port p).dropped ||| (1#4 <<< lane.toNat) ∧ t.out = .ctl p .retrain :: s.out) ∧
      (∃ t, exec (.lossOfLock port) s = .next t ∧ (away → same t) ∧ (t.port p).phase = .down ∧ (t.port p).heldDown = (s.port p).heldDown) ∧
      ((s.port p).phase ≠ .up → (s.port p).phase ≠ .down → ∃ t, exec (.trainingStateTimeout port) s = .next t ∧ (away → same t) ∧
        (t.port p).phase = .down ∧
        ((s.port p).phaseAt.toNat + (s.port p).limit < 2 ^ 64 → (s.port p).phaseAt.toNat + (s.port p).limit ≤ t.time.mono.toNat) ∧
        (s.isTwin p = false → s.time.worker ≠ .lost →
          ∃ e, Out.mgmt s.ae.manager (.portState e) ∈ t.out ∧ e.module = s.me ∧ e.port = BitVec.ofNat 5 (s.logicalOf p))) ∧
      (8 ≤ ((s.port p).tagFails.filter fun t => s.time.mono.toNat ≤ t.toNat + 1000000000).length →
        ∃ t, exec (.authFailureLimit port) s = .next t ∧ (away → same t) ∧ (t.port p).phase = .down ∧ (t.port p).heldDown = true) ∧
      (((s.port p).tagFails.filter fun t => s.time.mono.toNat ≤ t.toNat + 1000000000).length < 8 → exec (.authFailureLimit port) s = .next s)) ∧
  (
    ∀ (s : State) (port : BitVec 5) (o : TrainObs), port.toNat < s.label.variant.ports →
      let p := port.toNat
      let x := s.port p
      let away := (∀ r ∈ x.replay, r.pkt.src ≠ s.me) ∧ ∀ w ∈ s.fab.waiting, w.port = p → w.pkt.src ≠ s.me
      (x.phase = .down →
        exec (.trainingRetryTimer port o) s = exec (.portTraining port o) (s.reachMono (x.phaseAt.toNat + 10000000000))) ∧
      (s.facing p = none → exec (.portTraining port o) s = .next (s.noteLink p)) ∧
      (s.facing p ≠ none → x.heldDown = true → exec (.portTraining port o) s = .next s) ∧
      (s.facing p ≠ none → x.heldDown = false → ∃ t, exec (.portTraining port o) s = .next t ∧ (away → t.mem = s.mem ∧ t.parts = s.parts) ∧
        let y := t.port p
        let left := ~~~(o.shorted ||| o.open_ ||| x.dropped)
        let wide (good : BitVec 4) := y.width = (if good = 0xF#4 then 4 else if 2 ≤ laneCount good then 2 else 1) ∧ y.lanes &&& ~~~good = 0#4 ∧
          laneCount y.lanes = y.width ∧ ∀ l m, l < m → m < 4 → good.getLsbD l = true → y.lanes.getLsbD m = true → y.lanes.getLsbD l = true
        let after := if s.sec.setup.linkEnc then PortPhase.key else PortPhase.up
        (o.states = 1 →
          (x.phase ∈ [.down, .up, .detect] → (o.txToTx = true ∨ left = 0#4 → y.phase = .down) ∧
            (o.txToTx = false → left ≠ 0#4 → y.lanes = left ∧
              y.phase = (if x.wasUp = true ∨ x.phase = .up then .align else .equalise))) ∧
          (x.phase = .equalise → y.phase = .align ∧ t.out.head? = some (.training p (s.blockOf p))) ∧
          (x.phase = .align → y.phase = .check ∧ y.inverted = o.inverted) ∧
          (x.phase = .check → (s.checkFault p o ≠ none ∨ o.farGood &&& x.lanes = 0#4 → y.phase = .down) ∧
            (s.checkFault p o = none → o.farGood &&& x.lanes ≠ 0#4 → y.phase = .delay ∧ wide (o.farGood &&& x.lanes))) ∧
          (x.phase = .delay → (250 < o.delayNs → y.phase = .down) ∧ (o.delayNs ≤ 250 → y.phase = after ∧ y.delayNs = o.delayNs))) ∧
        (5 ≤ o.states → x.phase ∈ [.down, .up, .detect] →
          let good := o.farGood &&& left
          (o.txToTx = true ∨ s.checkFault p o ≠ none ∨ good = 0#4 ∨ 250 < o.delayNs → y.phase = .down) ∧
          (o.txToTx = false → s.checkFault p o = none → good ≠ 0#4 → o.delayNs ≤ 250 → y.phase = after ∧ wide good))))

/-- R319, R519: the key exchange of a link, cryptographic functions left open. The end that offers sends a fresh encapsulation key, 24 h after
the key came into use or on a count of packets that the model sets (notes/assumptions/64.md); the other end answers an offer under the identity that MODULES gives with the keys derived, each for its direction, and any other holds the port down; an answer
that verifies is confirmed; one that does not, and a confirmation that does not, hold the port down; a confirmed exchange in training brings the
port up under the new keys. -/
def Obligations.LinkKeysFollowVerifiedIdentities : Prop :=
  ∀ (s : State) (port : BitVec 5), port.toNat < s.label.variant.ports →
    let p := port.toNat
    let held (c : Instr) := ∃ t, exec c s = .next t ∧ (t.port p).phase = .down ∧ (t.port p).heldDown = true
    (s.sec.setup.linkEnc = true → (s.port p).phase = .up → s.offers p = true → ∃ t, exec (.linkRekey port) s = .next t ∧
      ((s.port p).keyCount < rekeyCount → (s.port p).keyAt.toNat + 86400000000000 < 2 ^ 64 →
        (s.port p).keyAt.toNat + 86400000000000 ≤ t.time.mono.toNat) ∧
      t.out.head? = some (.linkKey p (.offer ⟨Config.mlkemKey s.free, s.pubKey⟩)) ∧ (t.port p).phase = .up ∧ (t.port p).keyOut = (s.port p).keyOut) ∧
    (∀ r : LinkOffer, (s.port p).phase = .key ∨ (s.port p).phase = .up → s.offers p = false →
      (s.farKeyOk p r.pubKey = true →
        let e := Config.mlkemEncaps r.ekey s.free
        let h := linkHash r e.1 s.pubKey
        ∃ t, exec (.linkOffer port r) s = .next t ∧ (t.port p).exch.bind (·.keys) = some ((linkKeys e.2 h).2, (linkKeys e.2 h).1) ∧
          t.out.head? = some (.linkKey p (.answer ⟨e.1, s.pubKey, Config.mldsaSign s.label.identity (signed "SKZ link" (leBytes 64 h.toNat))⟩))) ∧
      (s.farKeyOk p r.pubKey = false → held (.linkOffer port r))) ∧
    (∀ (r : LinkAnswer) (x : LinkExch), (s.port p).exch = some x → s.offers p = true → x.keys = none →
      let h := linkHash x.offer r.ctext r.pubKey
      let ok := s.farKeyOk p r.pubKey && Config.mldsaVerify r.pubKey (signed "SKZ link" (leBytes 64 h.toNat)) r.sig
      let k := linkKeys (Config.mlkemDecaps x.counter r.ctext) h
      (ok = true → ∃ t, exec (.linkAnswer port r) s = .next t ∧ (t.port p).keyOut = some k.1 ∧
        Out.linkKey p (.confirm (Config.mldsaSign s.label.identity (signed "SKZ link" (leBytes 64 h.toNat)))) ∈ t.out ∧
        ((s.port p).phase = .key → (t.port p).phase = .up ∧ (t.port p).keyIn = some k.2)) ∧
      (ok = false → held (.linkAnswer port r))) ∧
    (∀ (sig : BitVec 37016) (x : LinkExch) (k : BitVec 256 × BitVec 256), (s.port p).exch = some x → x.keys = some k → x.sealed = false → s.offers p = false →
      let ok := Config.mldsaVerify x.offer.pubKey (signed "SKZ link" (leBytes 64 x.hash.toNat)) sig
      (ok = true → ∃ t, exec (.linkConfirm port sig) s = .next t ∧ (t.port p).keyOut = some k.1 ∧
        ((s.port p).phase = .key → (t.port p).phase = .up ∧ (t.port p).keyIn = some k.2)) ∧
      (ok = false → held (.linkConfirm port sig)))

/-! ## Directory and migration (spec/10, spec/08) -/

/-- R249, R251, R295: a batch that is new is acknowledged and waits for its turn and its stroke; a repeated one is acknowledged only; one in turn
whose stroke has come is applied at once: a switch gives the directory copy the block's new home and frame, a link-state change gives another
module's entry, and the next number is expected. An acknowledged batch is resent to its module no more; others are. A port's change waits at the
manager for the next broadcast, SLOTS set at full width only. -/
def Obligations.DirectoryBatchesApplyInOrder : Prop :=
  (∀ (s : State) (seq : BitVec 32) (us : List DirUpdate) (errs : List MemErr) (n : Stroke) (cs : List LinkState),
    ∀ p ∈ [(Instr.directoryUpdateBatch seq ⟨us, errs⟩, (⟨seq, (us.head?.map (·.stroke)).getD s.time.stroke, us.map .dir⟩ : Batch), s.noteErrs errs),
           (.linkStateBatch seq n cs, ⟨seq, n, cs.map .link⟩, s)],
      (s.newBatch seq = false → exec p.1 s = .next (p.2.2.send s.ae.manager (.batchAck seq))) ∧
      (s.newBatch seq = true → s.mem.gotBatch = [] → seq ≠ s.mem.nextBatch ∨ s.time.stroke.toNat < p.2.1.stroke.toNat →
        ∃ t, exec p.1 s = .next t ∧ t.mem.gotBatch = [p.2.1] ∧ t.mem.sentBatch = p.2.1 :: s.mem.sentBatch ∧ t.mem.nextBatch = s.mem.nextBatch ∧
          sameStacks s t ∧ t.parts = s.parts ∧ (s.time.worker ≠ .lost → t.out = .mgmt s.ae.manager (.batchAck seq) :: s.out))) ∧
  (∀ (s : State) (u : DirUpdate) (errs : List MemErr) (m : Migration) (a : Nat), s.canonical → s.mem.gotBatch = [] → u.kind = 1#8 →
    u.stroke.toNat ≤ s.time.stroke.toNat → s.migOf u.block.toNat = some m → m.oldMod ≠ s.me → m.newMod ≠ s.me → s.dirAddr u.block.toNat = some a →
    ∃ t, exec (.directoryUpdateBatch s.mem.nextBatch ⟨[u], errs⟩) s = .next t ∧ t.dirEntry u.block.toNat = dirMake false u.module u.frame ∧
      t.mem.nextBatch = s.mem.nextBatch + 1#32 ∧ t.mem.gotBatch = [] ∧ storedAt s.mem.mem t.mem.mem a (leBytes 4 (dirMake false u.module u.frame).toNat) ∧
      sameScratch s t) ∧
  (∀ (s : State) (c : LinkState) (n : Stroke), s.mem.gotBatch = [] → n.toNat ≤ s.time.stroke.toNat → c.module ≠ s.me →
    ∃ t, exec (.linkStateBatch s.mem.nextBatch n [c]) s = .next t ∧ t.linkEntry c.module.toNat c.port.toNat = ⟨c.state, c.width, c.slots⟩ ∧
      t.mem.nextBatch = s.mem.nextBatch + 1#32 ∧ sameStacks s t ∧ t.parts = s.parts) ∧
  (∀ (s : State) (m : BitVec 10) (seq : BitVec 32), ∃ t, exec (.batchAcknowledgement m seq) s = .next t ∧ t = { s with mem := t.mem } ∧ sameStacks s t ∧
    ∀ u, u ∈ t.mem.unacked ↔ u ∈ s.mem.unacked ∧ u ≠ (seq, m)) ∧
  (∀ s : State, s.isManager = true → s.time.worker ≠ .lost → ∃ t, exec .directoryBatchResend s = .next t ∧ t = { s with out := t.out } ∧
    ∀ u ∈ s.mem.unacked, ∀ b, s.mem.sentBatch.find? (fun b => b.seq = u.1) = some b → Out.mgmt u.2 (.batch b) ∈ t.out) ∧
  (∀ (s : State) (c : LinkState), s.isManager = true → ∃ t, exec (.portStateChange c) s = .next t ∧ t = { s with mem := t.mem } ∧ sameStacks s t ∧
    t.mem.linkNews.getLast? = some { c with slots := c.state = 1#2 && c.width = 0#2 } ∧
    ∀ d ∈ t.mem.linkNews, d.module = c.module → d.port = c.port → d.slots = (c.state = 1#2 && c.width = 0#2))

/-- R203, R260, R262, R264: a migrating block. The old home reports its transfer once all 16,384 granules have moved; the new home puts the queued
granules over the frame in order and takes the fence over; after the switch the old home's queue goes and the frame is reported free; a sketch that
is complete again ends the session's exclusion 0x9 and its charges at ring-mode cost. -/
def Obligations.MigrationEndsAtTheNewHome : Prop :=
  (∀ (s : State) (b : BitVec 32) (m : Migration), s.migOf b.toNat = some m → m.oldMod = s.me →
    (m.frozenAt.toNat ≤ s.time.stroke.toNat → m.switched = false → 16384 ≤ m.moved → ∃ t, exec (.migrationTransferComplete b) s = .next t ∧
      sameStacks s t ∧ t.parts = s.parts ∧ t.migOf b.toNat = some { m with complete := true } ∧
      (s.time.worker ≠ .lost → t.out = .mgmt s.ae.manager (.transferDone b) :: s.out)) ∧
    (m.moved < 16384 → exec (.migrationTransferComplete b) s = .next s)) ∧
  (∀ (s : State) (b : BitVec 32) (m : Migration) (e : FreezeEntry) (fenced : Bool), s.canonical → s.migOf b.toNat = some m → m.newMod = s.me →
    m.through = false → s.frameHeld m.newFrame.toNat = false → s.mem.waits = [] →
    ∃ t, exec (.freezeQueueReceive b [e] fenced []) s = .next t ∧ t.parts = s.parts ∧
      storedAt s.mem.mem t.mem.mem (m.newFrame.toNat * blockBytes + gaInBlock e.addr / 128 * 128) (granuleBytes e.data) ∧
      (fenced = true → b.toNat ∈ t.mem.fenced) ∧ ∀ g, t.migOf b.toNat = some g → g.through = true) ∧
  (∀ (s : State) (b : BitVec 32) (m : Migration), s.migOf b.toNat = some m → m.switched = true → m.oldMod = s.me →
    ∃ t, exec (.frameFree b) s = .next t ∧ sameStacks s t ∧ t.parts = s.parts ∧ t.queueOf b.toNat = [] ∧
      (s.time.worker ≠ .lost → t.out = .mgmt s.ae.manager (.frameFree b) :: s.out) ∧ (m.newMod ≠ s.me ∨ m.through = true → t.migOf b.toNat = none)) ∧
  (∀ (s : State) (port : BitVec 10) (slot : BitVec 15) (layer : BitVec 16) (head : BitVec 8), ∃ t, exec (.sketchGapClosed port slot layer head) s = .next t ∧
    t = { s with sess := t.sess, ae := t.ae } ∧
    (∀ x ∈ t.sess.list, x.port = port → x.slot = slot.toNat → 256 * layer.toNat + head.toNat ∉ x.incomplete) ∧
    ∀ x ∈ s.sess.list, x.port = port → x.slot = slot.toNat → x.incomplete = [256 * layer.toNat + head.toNat] →
      (∀ e ∈ t.sess.excls, e.same 9 (some x.key) = false) ∧ ∀ e ∈ t.ae.ledger, e.key = x.key → e.ring = false)

/-! ## The request transport (spec/14) -/

/-- R354 to R359: handshakes while the host link is up. A HELLO_C of another version is rejected with reason 1, one with reserved bits set is
discarded, a repeated one is answered with the same HELLO_D, and one that fails a check is rejected with that check's reason; one that passes
reserves an endpoint number that is free, or the one it replaces, and is answered. A FINISH that passes makes the endpoint live under the derived
keys and is acknowledged with SEQ 1; one that fails is rejected. A handshake ends 1 s after its HELLO_D. -/
def Obligations.HandshakesEstablishEndpoints : Prop :=
  ∀ s : State, s.trans.linkUp = true →
    (∀ h : HelloC, s.trans.accepting = true →
      (h.hdr.version ≠ 1#8 → exec (.helloC h) s = .next { s with out := .reject h.hdr.conn 1#8 h.src :: s.out }) ∧
      (h.hdr.version = 1#8 → h.hdr.rsvd ≠ 0#42 → ∃ t, exec (.helloC h) s = .next t ∧ t = { s with obs := t.obs } ∧
        t.ctr (modCtr 0x0061 0) = s.bumped (modCtr 0x0061 0) 1) ∧
      (h.hdr.version = 1#8 → h.hdr.rsvd = 0#42 →
        (∀ k, s.handshake h.hdr.conn h.src = some k → exec (.helloC h) s = .next { s with out := .hello k.hello :: s.out }) ∧
        (s.handshake h.hdr.conn h.src = none →
          (∀ r, s.helloFault h = some r → exec (.helloC h) s = .next { s with out := .reject h.hdr.conn (BitVec.ofNat 8 r) h.src :: s.out }) ∧
          (s.helloFault h = none → ∃ t k, exec (.helloC h) s = .next t ∧ t.trans.handshakes = s.trans.handshakes ++ [k] ∧ t.out = .hello k.hello :: s.out ∧
            t.trans.eps = s.trans.eps ∧ k.conn = h.hdr.conn ∧ k.src = h.src ∧ k.at_ = s.time.mono ∧ k.hello.endpoint = BitVec.ofNat 8 k.number ∧
            (h.replace ≠ 0xFF#8 → k.number = h.replace.toNat) ∧
            (h.replace = 0xFF#8 → k.number < 64 ∧ s.ep k.number = none ∧ ∀ j ∈ s.trans.handshakes, j.number ≠ k.number))))) ∧
    (∀ (f : Finish) (k : Handshake), s.handshake f.hdr.conn f.src = some k → f.hdr.version = 1#8 → f.hdr.rsvd = 0#42 →
      f.hdr.endpoint.toNat = k.number →
      (s.finishFault k f = none → ∃ t e, exec (.finish f) s = .next t ∧ t.ep k.number = some e ∧ t.trans.handshakes = s.trans.handshakes.erase k ∧
        e.client = Config.sha3 (leBytes 2592 k.pubKey.toNat) ∧ (e.keyIn, e.keyOut) = endpointKeys k.secret k.th ∧ e.conn = k.conn ∧ e.pace = k.pace ∧
        e.rxPoint = 0 ∧ e.txNext = 2 ∧ e.unacked = [] ∧ (∃ p, t.out = .ast p :: s.out ∧ p.hdr.ptype = 6#4 ∧ p.hdr.seq = 1#64) ∧ sameStacks s t) ∧
      (∀ r, s.finishFault k f = some r → ∃ t, exec (.finish f) s = .next t ∧ t.trans.handshakes = s.trans.handshakes.erase k ∧
        t.trans.eps = s.trans.eps ∧ t.out = .reject k.conn (BitVec.ofNat 8 r) k.src :: s.out)) ∧
    (∀ conn : BitVec 32, ∃ t, exec (.handshakeTimeout conn) s = .next t ∧ t = { s with trans := t.trans } ∧ t.trans.eps = s.trans.eps ∧
      ∀ k, k ∈ t.trans.handshakes ↔ k ∈ s.trans.handshakes ∧ ¬(k.conn = conn ∧ k.at_.toNat + 1000000000 ≤ s.time.mono.toNat))

/-- R353, R359, R361 to R366, R383: sealed packets while the host link is up. One that does not verify, of a reserved type, or for no live endpoint is
discarded and counted. A verified one acknowledges what it says; in its turn a DATA's messages are acted on once and a BYE ends an endpoint
without open sessions; a repeated one is acted on no more; RESUME moves the in-order point to its own packet. A packet unacknowledged is sent
again with the timeout doubled and, after 8 times, abandoned; a message behind the pacer leaves when tokens and window allow. -/
def Obligations.SealedPacketsActOnceInOrder : Prop :=
  ∀ s : State, s.trans.linkUp = true →
    (∀ (p : AstPkt), ∀ c ∈ [(Instr.data p, 5), (.ack p, 6), (.bye p, 7)], let num := p.hdr.endpoint.toNat
      (s.ep num = none → exec c.1 s = .next s.discard) ∧
      ∀ e, s.ep num = some e →
        (p.hdr.ptype.toNat ≠ c.2 ∨ e.verifies p = false ∨ (c.2 ≠ 5 ∧ p.msgs ≠ []) ∨ 131072 < e.heldBytes + p.hdr.len.toNat →
          exec c.1 s = .next s.discard) ∧
        (p.hdr.ptype.toNat = c.2 → e.verifies p = true → (c.2 = 5 ∨ p.msgs = []) → e.heldBytes + p.hdr.len.toNat ≤ 131072 → p.hdr.resume = false →
          e.rxHeld = [] → p.hdr.low.toNat ≤ e.rxPoint + 1 →
          (p.hdr.seq.toNat ≤ e.rxPoint → ∃ t f, exec c.1 s = .next t ∧ t.ep num = some f ∧ f.rxPoint = e.rxPoint ∧ t.sess = s.sess ∧ t.mem = s.mem ∧
            ∀ q ∈ f.unacked, p.hdr.ack.toNat < q.seq) ∧
          (p.hdr.seq.toNat = e.rxPoint + 1 → c.2 ≠ 7 → ∃ (u : State) (f : Endpoint), u.ep num = some f ∧ f.rxPoint = e.rxPoint + 1 ∧
            (∀ q ∈ f.unacked, p.hdr.ack.toNat < q.seq) ∧ u.sess = s.sess ∧ u.mem = s.mem ∧
            (p.hdr.ackReq = true → ∃ q, u.out = .ast q :: s.out ∧ q.hdr.ptype = 6#4 ∧ q.hdr.ack = p.hdr.seq) ∧
            exec c.1 s = .next (State.inSequence num 65 (p.msgs.foldl (State.message num) u))) ∧
          (p.hdr.seq.toNat = e.rxPoint + 1 → c.2 = 7 → ∃ t, exec c.1 s = .next t ∧ t.sess = s.sess ∧ (s.openOf num = 0 → t.ep num = none) ∧
            (s.openOf num ≠ 0 → ∃ f, t.ep num = some f ∧ f.pacedq = e.pacedq ++ [mkMsg 0x0F 0#32 [0x0B#8, 0#8]])))) ∧
    (∀ (p : AstPkt) (e : Endpoint), p.hdr.resume = true → s.ep p.hdr.endpoint.toNat = some e → e.verifies p = true → p.msgs = [] →
      p.hdr.ptype = 5#4 ∨ p.hdr.ptype = 6#4 → e.heldBytes + p.hdr.len.toNat ≤ 131072 → 1 ≤ p.hdr.seq.toNat → p.hdr.low.toNat ≤ p.hdr.seq.toNat →
      ∃ t f, exec (.resumePacket p) s = .next t ∧ t.ep p.hdr.endpoint.toNat = some f ∧ f.rxPoint = p.hdr.seq.toNat ∧ f.rxHeld = [] ∧ t.mem = s.mem) ∧
    (∀ h : AstHdr, exec (.reservedAstPacket h) s = .next s.discard) ∧
    (∀ (ep : BitVec 8) (e : Endpoint), s.ep ep.toNat = some e →
      (e.ackDue ≠ none → ∃ t f, exec (.ackDelay ep) s = .next t ∧ t.ep ep.toNat = some f ∧ f = { e with ackDue := none, txNext := e.txNext + 1 } ∧
        ∃ p, t.out = .ast p :: s.out ∧ p.hdr.ptype = 6#4 ∧ p.hdr.ack = BitVec.ofNat 64 e.inPoint) ∧
      (∀ (seq : BitVec 64) (q : SentPkt), e.unacked.find? (fun q => q.seq = seq.toNat) = some q → q.sacked = false →
        q.due = true ∨ q.sentAt.toNat + q.rto ≤ s.time.mono.toNat →
        (8 ≤ q.sends → ∃ t f, exec (.retransmitTimeout ep seq) s = .next t ∧ t.ep ep.toNat = some f ∧ f.abandoned = e.abandoned + 1 ∧
          ∀ x ∈ f.unacked, x.seq ≠ seq.toNat) ∧
        (q.sends < 8 → e.mayPace s.time.mono.toNat q.bytes q.bytes = true → ∃ t f, exec (.retransmitTimeout ep seq) s = .next t ∧ t.ep ep.toNat = some f ∧
          f.retrans = e.retrans + 1 ∧ { q with sends := q.sends + 1, sentAt := s.time.mono, rto := 2 * q.rto, due := false } ∈ f.unacked ∧
          t.out = .ast { q.pkt with src := e.addr } :: s.out)) ∧
      (∀ m rest, e.pacedq = m :: rest →
        (e.mayPace s.time.mono.toNat (msgBytes m).length 0 = true → ∃ t f, exec (.pacerSend ep) s = .next t ∧ t.ep ep.toNat = some f ∧ f.pacedq = rest ∧
          f.txNext = e.txNext + 1 ∧ ∃ p, t.out = .ast p :: s.out ∧ p.msgs = [m] ∧ p.hdr.ptype = 5#4) ∧
        (e.mayPace s.time.mono.toNat (msgBytes m).length 0 = false → exec (.pacerSend ep) s = .next s)))

/-- R368 to R372, R376, R378 to R380, Tables 14.9 to 14.14: messages on a live endpoint. A wrong length or a reserved field not zero, and a reserved
TYPE, is answered with its ERROR; a well-formed OPEN is forwarded to the manager, a PROMPT adds its tokens, a CLOSE closes with reason 1, a QUERY
and an OBSERVE queue their answers behind the pacer, DUMP and SNAPSHOT begin a capture unless the level or one outstanding forbids it, and a
capture begun takes its stroke; of a tensor with held blocks the other granules are kept as of that stroke until the hold is lifted. -/
def Obligations.MessagesAreAnsweredOrRefused : Prop :=
  ∀ (s : State) (ep : BitVec 8) (e : Endpoint) (m : Msg), s.ep ep.toNat = some e →
    let num := ep.toNat
    let error (c : Instr) (code : Nat) := exec c s = .next (s.sendError num m.type m.low code)
    (error (.reservedMessageType ep m) 1) ∧
    (openBad m = true → error (.openMsg ep m) 2) ∧
    (m.lenOk = false → ∀ c ∈ [Instr.prompt ep m, .close ep m, .queryStatus ep m, .queryResend ep m, .queryEndpoint ep m, .observeCounters ep m,
      .observeAttestation ep m, .observeAlarms ep m, .dump ep m, .snapshot ep m], error c 2) ∧
    (openBad m = false → (openTerms m).prompt.toNat < m.field 63 32 → error (.openMsg ep m) 5) ∧
    (openBad m = false → m.field 63 32 ≤ (openTerms m).prompt.toNat → e.opens.length < 64 → s.boot.standing ≠ .heldVisible → ∃ t f,
      exec (.openMsg ep m) s = .next t ∧ t.ep num = some f ∧ f.opens = e.opens ++ [⟨⟨s.me, BitVec.ofNat 8 num, m.low, openTerms m⟩, tokensOf (m.body.drop 32)⟩] ∧
      (s.time.worker ≠ .lost → t.out = .mgmt s.ae.manager (.openFwd ⟨s.me, BitVec.ofNat 8 num, m.low, openTerms m⟩) :: s.out)) ∧
    (m.lenOk = true → 8 ≤ m.len.toNat → m.len.toNat = 8 + 4 * m.field 31 0 →
      (s.epSession num m.low = none → error (.prompt ep m) 3) ∧
      (∀ x, s.epSession num m.low = some x → m.field 63 32 ≠ x.rcvd → error (.prompt ep m) 4) ∧
      (∀ x, s.epSession num m.low = some x → m.field 63 32 = x.rcvd → x.terms.prompt.toNat < x.rcvd + m.field 31 0 → error (.prompt ep m) 5) ∧
      (∀ x, s.epSession num m.low = some x → m.field 63 32 = x.rcvd → x.rcvd + m.field 31 0 ≤ x.terms.prompt.toNat → ∃ t y,
        exec (.prompt ep m) s = .next t ∧ t.session ⟨s.me, m.low⟩ = some y ∧ y.rcvd = x.rcvd + (tokensOf (m.body.drop 8)).length)) ∧
    (m.lenOk = true → m.len = 0#16 →
      (s.epSession num m.low = none → error (.close ep m) 3) ∧
      (∀ x, s.epSession num m.low = some x → x.ready = [] → ∃ t y c, exec (.close ep m) s = .next t ∧ t.session ⟨s.me, m.low⟩ = some y ∧ y.closing = some c ∧
        c.reason = 1#8 ∧ c.stroke = s.time.stroke ∧ sameStacks s t)) ∧
    (queryBad m = false →
      (∀ x, s.epSession num m.low = some x → exec (.queryStatus ep m) s = .next (s.paceMsg num (mkMsg 9 m.low (leBytes 32
        (x.queryState * 2 ^ 248 + x.rcvd * 2 ^ 216 + x.sendNext * 2 ^ 184 + x.due x.sendNext * 2 ^ 136 + x.first.toNat * 2 ^ 88 + x.breaches * 2 ^ 56 +
          x.shifts * 2 ^ 48 + s.time.stroke.toNat))))) ∧
      (∀ x, s.epSession num m.low = some x → m.field 31 0 < x.sendNext → ∀ h r, x.sent = h :: r →
        (m.field 31 0 < h.outIndex.toNat → error (.queryResend ep m) 9) ∧
        (h.outIndex.toNat ≤ m.field 31 0 → exec (.queryResend ep m) s = .next (s.paceMsg num (mkMsg 5 x.handle
          (tokensBody ((x.sent.filter fun e => m.field 31 0 ≤ e.outIndex.toNat).map fun e => { e with resent := true })))))) ∧
      (m.low = 0#32 → exec (.queryEndpoint ep m) s = .next (s.paceMsg num (mkMsg 9 m.low (leBytes 32 ((e.srtt.getD 0) * 2 ^ 192 + e.retrans * 2 ^ 128 +
        e.abandoned * 2 ^ 64 + s.openOf num * 2 ^ 32 + e.opens.length)))))) ∧
    (observeOk m = true →
      (m.field 63 56 = 0 → exec (.observeCounters ep m) s = .next (s.paceAll num
        (observations s.ftOr0 (s.set0.flatMap fun k => (s.ctrRecord k).bytes) 32))) ∧
      (m.field 63 56 ≠ 0 → s.sec.setup.obsLevel = 0#2 → error (.observeCounters ep m) 6) ∧
      exec (.observeAttestation ep m) s = .next (s.paceAll num (observations s.ftOr0 (s.report e.th false) 1)) ∧
      exec (.observeAlarms ep m) s = .next (s.paceAll num (observations s.ftOr0
        (((s.obs.alarms ++ s.obs.reserved).map AlarmEntry.rec' ++ s.obs.events.map EventEntry.rec').flatMap traceBytes) 32))) ∧
    (m.lenOk = true → m.len = 12#16 → m.field 23 0 = 0 → m.low = 0#32 →
      (s.sec.setup.obsLevel.toNat < 2 → error (.dump ep m) 6) ∧
      (2 ≤ s.sec.setup.obsLevel.toNat → s.traceEntry ≠ none → e.bulk ≠ none → error (.dump ep m) 7) ∧
      (2 ≤ s.sec.setup.obsLevel.toNat → s.traceEntry ≠ none → e.bulk = none → s.tensor (m.field 95 72) = none → error (.dump ep m) 8) ∧
      (2 ≤ s.sec.setup.obsLevel.toNat → s.traceEntry ≠ none → e.bulk = none → s.tensor (m.field 95 72) ≠ none → ∃ t f, exec (.dump ep m) s = .next t ∧
        t.ep num = some f ∧ f.bulk = some ⟨BitVec.ofNat 24 (m.field 95 72), BitVec.ofNat 48 (m.field 71 24), none, [], 0, none⟩ ∧
        t.obs.dumps = s.obs.dumps ++ [⟨BitVec.ofNat 8 num, BitVec.ofNat 24 (m.field 95 72), BitVec.ofNat 48 (m.field 71 24), none⟩])) ∧
    (m.lenOk = true → m.len = 0#16 → m.low = 0#32 →
      (s.sec.setup.obsLevel = 0#2 → error (.snapshot ep m) 6) ∧
      (s.sec.setup.obsLevel ≠ 0#2 → e.bulk ≠ none → error (.snapshot ep m) 7) ∧
      (s.sec.setup.obsLevel ≠ 0#2 → e.bulk = none → ∃ t f b, exec (.snapshot ep m) s = .next t ∧ t.ep num = some f ∧ f.bulk = some b ∧
        b.taken = some s.time.stroke ∧ b.data.length % 32 = 0 ∧ e.pacedq.length < f.pacedq.length)) ∧
    (∀ (d : DumpReq) (ds : List DumpReq) (r : SymbolRec) (b : BulkJob), s.obs.dumps = d :: ds → d.ep = ep → s.tensor d.tensor.toNat = some r → s.traceEntry ≠ none →
      e.bulk = some b → b.taken = none →
      ((∀ g ∈ r.granules, s.granuleHeld g = false) → d.kept = none → s.mayTake d r = true → ∃ t f b', exec .dumpCapture s = .next t ∧
        t.ep num = some f ∧ f.bulk = some b' ∧ b'.taken = some s.su.doneWork ∧ b'.data = s.dumpData r []) ∧
      ((∀ g ∈ r.granules, s.granuleHeld g = false) → ∀ m k, d.kept = some (m, k) → ∃ t f b', exec .dumpCapture s = .next t ∧
        t.ep num = some f ∧ f.bulk = some b' ∧ b'.taken = some m ∧ b'.data = s.dumpData r k) ∧
      ((∃ g ∈ r.granules, s.granuleHeld g = true) → d.kept = none → s.mayTake d r = true → ∃ t, exec .dumpCapture s = .next t ∧
        t.trans = s.trans ∧ t.mem = s.mem ∧ t.obs.dumps = { d with kept := some (s.su.doneWork, s.dumpKeep r) } :: ds))

/-! ## Observation and the Ethernet ports (spec/21, spec/14) -/

/-- R347, R381, R529, R531 to R538: an Ethernet frame for this module is counted; ARP for its address, IPv6 neighbour solicitation for its address and,
where the plate lets it, ICMP echo are answered; what its port does not take is discarded and counted, and a frame not for it changes nothing.
Without host link exclusion 0x8 is in force, and it ends with the link's return; below level 3 the tracing port has no link. An alarm has one entry
that counts its repeats, in its code's reserved entry once 1,024 stand; an event has an entry of its own within 64 a second, the oldest of 4,096
going. A record of a die joins its queue, one of the module the buffer, in order, or the ring of a window, which a trigger begins to freeze; what
finds no room is counted lost. A sample gives each counter of set 0 a record. A frame takes a hang snapshot first, else the oldest 256 records; a
window at the end of its countdown is frozen and, once it has been sent, armed again. -/
def Obligations.ObservationKeepsWhatHappens : Prop :=
  (∀ (s : State) (f : EthFrame),
    (s.hostport = none → exec (.ethernetFrame f) s = .next s) ∧
    ∀ h : HostPortRec, s.hostport = some h →
      (s.trans.linkUp = false ∨ h.vlanOk f.vlan = false ∨ forUs f h = false → exec (.ethernetFrame f) s = .next s) ∧
      (s.trans.linkUp = true → h.vlanOk f.vlan = true → forUs f h = true → ∃ t, exec (.ethernetFrame f) s = .next t ∧
        t = { s with obs := t.obs, out := t.out } ∧ t.ctr (modCtr 0x0060 0) = s.bumped (modCtr 0x0060 0) 1 ∧
        let dropped := t.out = s.out ∧ t.ctr (modCtr 0x0061 0) = s.bumped (modCtr 0x0061 0) 1
        let answered (o : List Out) := t.out = o ++ s.out ∧ t.ctr (modCtr 0x0061 0) = s.ctr (modCtr 0x0061 0)
        (∀ a, f.body = .arp a → answered [.arpReply]) ∧
        (∀ d frag ext a, f.body = .ipv6 d frag ext (.solicit a) → answered [.ndReply]) ∧
        (f.body = .ptp → answered []) ∧ (f.body = .pause ∨ f.body = .other → dropped) ∧
        ∀ (b : IpBody) (ok : Bool),
          (∃ d frag opts, f.body = .ipv4 d frag opts b ∧ (ok = true ↔ d = h.ipv4 ∧ d ≠ 0#32 ∧ frag = false ∧ opts = false)) ∨
          (∃ d frag ext, f.body = .ipv6 d frag ext b ∧ (∀ a, b ≠ .solicit a) ∧ (ok = true ↔ d = h.ipv6 ∧ d ≠ 0#128 ∧ frag = false ∧ ext = false)) →
          (ok = false → dropped) ∧
          (ok = true → (b = .echoRequest → if h.echo then answered [.echoReply] else dropped) ∧ (b = .other → dropped) ∧
            ∀ port sum, b = .udp port sum → if sum = true ∧ (port = h.astPort ∨ port = 319#16 ∨ port = 320#16) then answered [] else dropped))) ∧
  (∀ (s : State) (up : Bool),
    (up = false ∨ s.portsOpen = false → ∃ t, exec (.hostPortLinkChange up) s = .next t ∧ t.trans.linkUp = false ∧ t.exclOpen 8 = true ∧
      t.sess.list = s.sess.list) ∧
    (up = true → s.portsOpen = true → ∃ t, exec (.hostPortLinkChange up) s = .next t ∧ t.trans.linkUp = true ∧ ∀ e ∈ t.sess.excls, e.same 8 none = false) ∧
    exec (.tracingPortLinkChange up) s = .next { s with obs := { s.obs with linkUp := up && s.sec.setup.obsLevel = 3#2 } }) ∧
  (∀ (s : State) (n : Notice),
    let mine (e : AlarmEntry) : Bool := e.space = n.space && e.code = n.code && e.die = n.die && e.engine = n.engine
    let code (e : AlarmEntry) : Bool := e.space = n.space && e.code = n.code
    let sec := s.ftOr0.toNat / 1000000000
    (∃ t, exec (.alarm n) s = .next t ∧ t = { s with obs := t.obs } ∧
      (s.obs.alarms.find? mine = none → s.obs.alarms.length < 1024 → ∃ e, t.obs.alarms = s.obs.alarms ++ [e] ∧ mine e = true ∧ e.count = 1 ∧
        e.detail = n.detail ∧ e.stroke = s.time.stroke ∧ e.ft = s.ftOr0) ∧
      (∀ e, s.obs.alarms.find? mine = some e → ∃ f, t.obs.alarms.find? mine = some f ∧ f.count = e.count + 1 ∧ f.detail = n.detail ∧
        t.obs.alarms.length = s.obs.alarms.length) ∧
      (s.obs.alarms.find? mine = none → 1024 ≤ s.obs.alarms.length → t.obs.alarms = s.obs.alarms ∧ ∃ f, t.obs.reserved.find? code = some f ∧
        f.detail = n.detail ∧ f.count = ((s.obs.reserved.find? code).map (·.count)).getD 0 + 1)) ∧
    (rateOf s n sec < 64 → ∃ t e, exec (.event n) s = .next t ∧ t = { s with obs := t.obs } ∧
      t.obs.events = (if 4096 ≤ s.obs.events.length then s.obs.events.drop 1 else s.obs.events) ++ [e] ∧
      (e.space, e.code, e.die, e.engine, e.detail, e.ft) = (n.space, n.code, n.die, n.engine, n.detail, s.ftOr0) ∧ e.seq = s.obs.nextSeq ∧
      t.obs.nextSeq = s.obs.nextSeq + 1#32) ∧
    (64 ≤ rateOf s n sec → ∃ t, exec (.event n) s = .next t ∧ t = { s with obs := t.obs } ∧ t.obs.events = s.obs.events ∧
      t.ctr (modCtr 0x0080 (n.space.toNat * 256 + n.code.toNat)) = s.bumped (modCtr 0x0080 (n.space.toNat * 256 + n.code.toNat)) 1)) ∧
  (∀ (s : State) (r : TraceRec) (t0 : TraceEntry), s.traceEntry = some t0 →
    (s.tracing r.kind.toNat = false → exec (.traceRecord r) s = .next s) ∧
    (s.tracing r.kind.toNat = true → r.die.toNat < s.label.variant.parts → (s.part r.die.toNat).traceLost = none →
      ∃ t, exec (.traceRecord r) s = .next t ∧ t = { s with parts := t.parts, obs := t.obs } ∧ t.obs.trace = s.obs.trace ∧
        let old := s.part r.die.toNat
        ((old.traceq.length < 1024 → t.part r.die.toNat = { old with traceq := old.traceq ++ [r] }) ∧
         (1024 ≤ old.traceq.length → t.part r.die.toNat = { old with traceLost := some (r.ft, 1) } ∧
            t.ctr (modCtr 0x0082 0) = s.bumped (modCtr 0x0082 0) 1))) ∧
    (s.tracing r.kind.toNat = true → s.label.variant.parts ≤ r.die.toNat → ovfBlocked s t0 = false → ∃ t, exec (.traceRecord r) s = .next t ∧
      t = { s with obs := t.obs } ∧
      (t0.mode = false → s.obs.gap = none → s.obs.trace.length + 1 < t0.capacity → t.obs = { s.obs with trace := s.obs.trace ++ [r] }) ∧
      ((t0.mode = false ∧ s.obs.gap = none ∧ t0.capacity ≤ s.obs.trace.length + 1) ∨ (t0.mode = true ∧ s.obs.frozen = true ∧ s.obs.gap = none) →
        t.obs.trace = s.obs.trace ∧ t.obs.gap = some (r.ft, 1) ∧ t.ctr (modCtr 0x0082 0) = s.bumped (modCtr 0x0082 0) 1) ∧
      (t0.mode = true → s.obs.frozen = false →
        (triggers t0 r = false → s.obs.post = none → t.obs = { s.obs with trace := ringPut t0.capacity s.obs.trace r }) ∧
        (triggers t0 r = true → s.obs.post = none → t.obs.post = some t0.postCount.toNat ∧ (t.obs.frozen = true ↔ t0.postCount = 0#32) ∧
          t.obs.trace = ringPut t0.capacity (ringPut t0.capacity s.obs.trace r) (triggerRec s t0 r)) ∧
        ∀ n, s.obs.post = some n → t.obs.post = some (n - 1) ∧ (t.obs.frozen = true ↔ n ≤ 1) ∧ t.obs.trace = ringPut t0.capacity s.obs.trace r))) ∧
  (∀ (s : State) (t0 : TraceEntry), s.traceEntry = some t0 →
    (t0.mode = false → t0.ovfGib = 0#8 → s.obs.gap = none →
      let queued := (List.range s.label.variant.parts).flatMap fun p => (s.part p).traceq
      s.obs.trace.length + queued.length < t0.capacity → s.gatherTrace.obs.trace = s.obs.trace ++ queued) ∧
    (∃ t, exec .traceSample s = .next t ∧ t = { s with parts := t.parts, obs := t.obs } ∧ (t0.sampleUs = 0#32 → t = s) ∧
      (t0.sampleUs ≠ 0#32 → t0.mode = false → t0.ovfGib = 0#8 → s.tracing 6 = true → s.obs.gap = none →
        s.obs.trace.length + s.set0.length < t0.capacity →
        (∀ p < s.label.variant.parts, (s.part p).traceLost = none ∧ (s.part p).traceq.length + s.set0.countP (fun k => k.die = p) ≤ 1024) →
        ∀ k ∈ s.set0, (s.label.variant.parts ≤ k.die → sampleRec s k ∈ t.obs.trace) ∧
          (k.die < s.label.variant.parts → sampleRec s k ∈ (t.part k.die).traceq))) ∧
    (let g := s.gatherTrace
     ∃ t, exec .traceFrameSend s = .next t ∧ t = { g with obs := t.obs, out := t.out } ∧
      (s.obs.linkUp = false ∨ (s.obs.hang = [] ∧ (g.obs.trace = [] ∨ (t0.mode = true ∧ g.obs.frozen = false))) → t = g) ∧
      (s.obs.linkUp = true → s.obs.hang ≠ [] → ∃ f, t.out = .traceFrame f :: s.out ∧ f.content = 2 ∧ f.bytes = s.obs.hang.take 8192 ∧
        t.obs.hang = s.obs.hang.drop 8192 ∧ t.obs.trace = g.obs.trace) ∧
      (s.obs.linkUp = true → s.obs.hang = [] → g.obs.trace ≠ [] → t0.mode = false ∨ g.obs.frozen = true →
        ∃ f, t.out = .traceFrame f :: s.out ∧ f.content = (if t0.mode then 1 else 0) ∧ f.recs = g.obs.trace.take 256 ∧ f.seq = s.obs.frameSeq ∧
          t.obs.trace = g.obs.trace.drop 256 ∧ t.obs.frameSeq = s.obs.frameSeq + 1#32)) ∧
    (∃ t, exec .traceWindowFreeze s = .next t ∧ (t0.mode = false ∨ s.gatherTrace.obs.post ≠ some 0 → t = s) ∧
      (t0.mode = true → s.gatherTrace.obs.post = some 0 → t = { s.gatherTrace with obs := { s.gatherTrace.obs with frozen := true } })) ∧
    (∃ t, exec .traceWindowRearm s = .next t ∧ t = { s with obs := t.obs } ∧
      (t0.mode = false ∨ t0.rearm = false ∨ s.obs.frozen = false ∨ s.obs.trace ≠ [] → t = s) ∧
      (t0.mode = true → t0.rearm = true → s.obs.frozen = true → s.obs.trace = [] →
        t.obs.frozen = false ∧ t.obs.post = none ∧ t.obs.gap = none ∧ t.obs.trace = (s.obs.gap.map fun g => gapRec s g.1 g.2 0x40#8).toList)))

/-! ## Admission and sessions (spec/13, spec/14, spec/18) -/

/-- R331, R334: an accepted OPEN fits. The decision is the grant of the plan entered; its schedule begins at stroke a; its ring is one that no session
of the port holds, its blocks lie in the instance's blocks of session state and in none that another allocation holds; and no module of the
instance fails a check in any stroke in which the session has a row. -/
def Obligations.AcceptedSessionsFit : Prop :=
  ∀ (s : State) (f : FwdOpen) (a : Nat) (p : AdmPlan) (c : ClassEntry), s.cclass f.terms.cclass = some c → (s.decide f a).2 = some p →
    (∀ u ∈ [3, 4], ∀ b ∈ s.instBlocks c.inst u, b < 2 ^ 32) → (∀ n ∈ c.chunkSizes, n < 65536) →
    (s.decide f a).1 = .accept p.grant ∧ p.grant.handle = p.entry.handle ∧ p.grant.frames = p.entry.frames ∧ p.grant.area = p.entry.area ∧
    p.entry.port = f.port ∧ p.entry.terms = f.terms ∧ p.entry.admAt = BitVec.ofNat 48 a ∧
    p.entry.first = BitVec.ofNat 48 (a + 1 + chunks f.terms.prompt.toNat p.entry.chunk.toNat) ∧
    (∀ e ∈ s.holders false a, e.port = f.port → slotOfHandle e.handle ≠ slotOfHandle p.entry.handle) ∧
    (∀ b ∈ p.entry.blocks, (b ∈ s.instBlocks c.inst 3 ∨ b ∈ s.instBlocks c.inst 4) ∧ ∀ e ∈ s.holders false a, b ∉ e.blocks) ∧
    s.ae.isOpen = true ∧ s.stateCode (s.instModules c.inst) = none ∧
    ∀ m ∈ s.instModules c.inst, ∀ n ∈ p.entry.rowStrokes, s.failsAt (s.ae.ledger ++ [p.entry]) c.inst m n resources = none

/-- R331, R336, R422: the manager's part in an OPEN. One with a record is answered from it, a new one joins the queue, one that finds 1,024 there is
refused with 0x14; the decision takes the front of the queue, enters an acceptance in the ledger, and goes to the port module at once in a domain
without deputy, else after the deputy's acknowledgement. The holder keeps what it allocates for the other side until the release. -/
def Obligations.AdmissionAnswersEveryOpen : Prop :=
  ∀ s : State, s.isManager = true →
    (∀ f : FwdOpen,
      (∀ d, s.ae.records.find? (fun d => d.req = f) = some d → exec (.admissionQueueEnqueue f) s = .next (s.send f.port (.decision d))) ∧
      ((∀ d ∈ s.ae.records, d.req ≠ f) → f ∉ s.ae.queue → (∀ d ∈ s.ae.awaiting, d.req ≠ f) →
        (s.ae.queue.length < 1024 → exec (.admissionQueueEnqueue f) s = .next { s with ae := { s.ae with queue := s.ae.queue ++ [f] } }) ∧
        (1024 ≤ s.ae.queue.length → s.deputyToAsk = none → s.time.worker ≠ .lost → ∃ t, exec (.admissionQueueEnqueue f) s = .next t ∧
          t.out = .mgmt f.port (.decision ⟨s.ae.nextId, f, refusal 0x14 0 0#10 noStroke s.time.stroke.toNat⟩) :: s.out ∧ t.ae.queue = s.ae.queue))) ∧
    (∀ f rest, s.ae.queue = f :: rest → s.asksHolder = false → s.time.worker ≠ .lost →
      let d := s.decide f s.time.stroke.toNat
      ∃ t, exec .admissionDecision s = .next t ∧ t.ae.queue = rest ∧ t.mem = s.mem ∧ t.parts = s.parts ∧ t.ae.nextId = s.ae.nextId + 1 ∧
        t.ae.ledger = s.ae.ledger ++ (d.2.map (·.entry)).toList ∧
        (s.deputyToAsk = none → .mgmt f.port (.decision ⟨s.ae.nextId, f, d.1⟩) ∈ t.out ∧ ⟨s.ae.nextId, f, d.1⟩ ∈ t.ae.records) ∧
        (∀ m, s.deputyToAsk = some m → t.out = .mgmt m (.decisionRecord ⟨s.ae.nextId, f, d.1⟩) :: s.out ∧ ⟨s.ae.nextId, f, d.1⟩ ∈ t.ae.awaiting)) ∧
    (∀ id d, s.ae.awaiting.find? (fun d => d.id = id) = some d → s.time.worker ≠ .lost → ∃ t, exec (.decisionRecordAck id) s = .next t ∧
      d ∈ t.ae.records ∧ (∀ x ∈ t.ae.awaiting, x.id ≠ id) ∧ .mgmt d.req.port (.decision d) ∈ t.out ∧ t.mem = s.mem ∧ t.parts = s.parts) ∧
    (∀ (f : FwdOpen) (g : Grant) (p : AdmPlan), s.side = false → s.decideAt f s.time.stroke.toNat false = .ok p → ∃ t,
      exec (.allocationGrant (.request f g)) s = .next t ∧ t.ae.twinUsed = s.ae.twinUsed ++ [p.entry] ∧
      t.out.head? = some (.twin (.relay (.allocGrant 0 { g with handle := p.entry.handle, frames := p.entry.frames, area := p.entry.area,
                                                                areaLen := p.entry.areaLen })))) ∧
    (∀ (port : BitVec 10) (h : BitVec 32), ∃ t, exec (.allocationGrant (.release port h)) s = .next t ∧
      ∀ e, e ∈ t.ae.twinUsed ↔ e ∈ s.ae.twinUsed ∧ e.key ≠ ⟨port, h⟩)

/-- R330, R371, R374, R375, R480: the life of a session. Its port module answers a decision once: ACCEPT with the session under its terms, or REFUSE;
a prompt incomplete at its deadline closes it; the outputs ready leave together and the one with END closes it; and the manager marks each module
that has drained, the charges stopped. -/
def Obligations.SessionsOpenSendAndClose : Prop :=
  (∀ (s : State) (d : DecisionRec) (e : Endpoint) (w : WaitingOpen), d.req.port = s.me → s.ep d.req.ep.toNat = some e →
    e.opens.find? (fun w => w.req.tag = d.req.tag && w.req.terms = d.req.terms) = some w →
    (∀ r, d.dec = .refuse r → ∃ t f, exec (.decisionReceive d) s = .next t ∧ t.ep d.req.ep.toNat = some f ∧ f.opens = e.opens.erase w ∧
      f.txNext = e.txNext + 1 ∧ t.sess = s.sess ∧ t.mem = s.mem ∧ t.ctr (modCtr 0x0012 0) = s.bumped (modCtr 0x0012 0) 1) ∧
    (∀ g, d.dec = .accept g → w.req.port = s.me → s.session ⟨s.me, g.handle⟩ = none → ∃ t f x, exec (.decisionReceive d) s = .next t ∧
      t.ep d.req.ep.toNat = some f ∧ f.opens = e.opens.erase w ∧ t.session ⟨s.me, g.handle⟩ = some x ∧ x.terms = w.req.terms ∧ x.first = g.first ∧
      x.chunk = g.chunk ∧ x.frames = g.frames ∧ x.area = g.area ∧ x.rcvd = w.tokens.length ∧ x.closing = none ∧
      t.ctr (modCtr 0x0011 0) = s.bumped (modCtr 0x0011 0) 1)) ∧
  (∀ (s : State) (slot : BitVec 15) (x : Session), s.slotSession slot.toNat = some x → s.session x.key = some x →
    (x.rcvd < x.terms.prompt.toNat → ∃ t y c, exec (.promptDeadline slot) s = .next t ∧ t.session x.key = some y ∧ y.closing = some c ∧ c.reason = 3#8 ∧
      c.stroke = s.time.stroke) ∧
    (x.terms.prompt.toNat ≤ x.rcvd → ∃ t, exec (.promptDeadline slot) s = .next t ∧ t = { s with time := t.time }) ∧
    (s.trans.linkUp = true → x.suspended = none → x.valid = none → x.ready ≠ [] → ∃ t y, exec (.tokensSend slot) s = .next t ∧ t.session x.key = some y ∧
      y.sendNext = x.sendNext + x.ready.length ∧ ((∃ r ∈ x.ready, r.fin = true) → ∃ c, y.closing = some c ∧ c.reason = 2#8) ∧
      ((∀ r ∈ x.ready, r.fin = false) → y.closing = none))) ∧
  (∀ (s : State) (port m : BitVec 10) (h : BitVec 32) (e : LedgerEntry), s.isManager = true → e ∈ s.ae.ledger → e.key = ⟨port, h⟩ → e.released = false →
    (s.instModules e.inst).contains m = true → ∃ t, exec (.drained port h m) s = .next t ∧ t.mem = s.mem ∧
      ∀ x ∈ t.ae.ledger, x.key = ⟨port, h⟩ → m ∈ x.drained ∧ x.stop ≠ none)

/-! ## The shared store and the tuning job (spec/16, spec/17) -/

/-- R408, R429, R432, R506: the shared store. A handshake answered under the key that the plate names makes the association live; one answered under
another, and a REJECT, begins anew; the next piece of an object joins those before it; a PUT that could not be taken is no longer outstanding, and
stored data of a proof whose tag fails is not taken. -/
def Obligations.StoreAnswersAreChecked : Prop :=
  (∀ (s : State) (h : HelloD), s.trans.store.phase = 1 → h.hdr.conn = s.trans.store.conn →
    let th := handshakeHash s.storeHelloC h
    let known := s.proofRec.any fun p => p.storeKey = keyHash h.pubKey && p.storeKey ≠ 0#512
    (known = true → Config.mldsaVerify h.pubKey (deviceBytes th) h.sig = true → ∃ t f, exec (.helloD h) s = .next t ∧ t.trans.store.phase = 2 ∧
      t.trans.store.number = h.endpoint ∧
      (t.trans.store.keyOut, t.trans.store.keyIn) = endpointKeys (Config.mlkemDecaps s.trans.store.ekey h.ctext) th ∧ .store (.finish f) ∈ t.out ∧
      f.sig = Config.mldsaSign s.label.identity (clientBytes' th h.sig) ∧ t.mem = s.mem) ∧
    (known = false ∨ Config.mldsaVerify h.pubKey (deviceBytes th) h.sig = false → exec (.helloD h) s = .next s.retryStore)) ∧
  (∀ (s : State) (reason : BitVec 8), s.trans.store.phase = 1 → exec (.reject s.trans.store.conn reason) s = .next s.retryStore ∧
    (s.trans.store.getting = [] → s.trans.store.putting = [] → s.retryStore.trans.store.phase = 0)) ∧
  (∀ (s : State) (d : StoreData), s.trans.store.phase = 2 → d.name ∈ s.trans.store.getting → d.name.getLsbD 63 = false →
    d.offset.toNat = (s.fetched d.name).length → (s.fetched d.name).length + d.data.length < d.total.toNat →
    ∃ t, exec (.storeData d) s = .next t ∧ t = { s with boot := t.boot } ∧ t.fetched d.name = s.fetched d.name ++ d.data) ∧
  (∀ (s : State) (d : StoreData), s.trans.store.phase = 2 → d.name ∈ s.trans.store.getting → d.name.getLsbD 63 = true →
    s.proofTag d.name d.offset d.total d.data ≠ d.tag → ∃ t, exec (.storeData d) s = .next t ∧ d.name ∉ t.trans.store.getting ∧ t.fetched d.name = []) ∧
  (∀ (s : State) (name : BitVec 64) (status : BitVec 8) (q : Stroke × Bool), s.trans.store.putting.find? (fun q => s.proofName q.1.toNat = name) = some q →
    status ≠ 0#8 → ∃ t, exec (.storeDone name status) s = .next t ∧ t = { s with trans := t.trans } ∧ q ∉ t.trans.store.putting)

/-- R447, R448, R456 to R459: the tuning job. A step released zeroes the job's semaphores and puts every stream of PROGRAM 2 at its first command; a
step waits for uncommitted proofs of earlier steps and is then counted; a step complete leads to the next or, after the last, ends the job, its
due proofs taken; a committed proof is kept and holds nothing back; a stopped job waits with no uncommitted proof, and resumes behind its best
one, which of layer 1 is first asked of the twin: the twin sends its job state back and says that this is all of it (the two words are the model's
choice, log 54). -/
def Obligations.JobStepsFollowTheirProofs : Prop :=
  (∀ (s : State) (j : Tuning), s.tuning = some j → s.runsJob = true → s.boot.standing = .serving → s.inService = true →
    (s.job.phase = .off ∨ (s.job.phase = .between ∧ s.mayRelease = true) → ∃ t, exec .jobStepRelease s = .next t ∧ t.job.phase = .running ∧
      t.job.step = (if s.job.phase = .off then 1 else s.job.step + 1) ∧ t.job.released = s.time.stroke ∧ t.job.committed = s.job.committed ∧
      (∀ p m, m ∈ (t.part p).sems → isJobSem m.1 = false) ∧
      ∀ p o, p < s.label.variant.parts → (s.stream p o j.inst 2#2).isSome = true → ((t.part p).owner o).job.pos = 0 ∧
        ((t.part p).owner o).job.inst = j.inst ∧ ((t.part p).owner o).job.headAt = some s.ftOr0) ∧
    (s.job.phase = .between → s.mayRelease = false → ∃ t, exec .jobStepRelease s = .next t ∧ t = { s with obs := t.obs } ∧
      t.ctr (modCtr 0x0071 0) = s.bumped (modCtr 0x0071 0) 1)) ∧
  (∀ (s : State) (j : Tuning), s.tuning = some j → s.job.phase = .running → s.jobStepDone j.inst = true → ∃ t, exec .jobStepComplete s = .next t ∧
    t.job.phase = (if s.job.step = j.stepsMax.toNat then .done else .between) ∧ t.job.step = s.job.step ∧ sameStacks s t ∧ sameScratch s t ∧
    (∀ k ∈ s.job.open_, k ∈ t.job.open_) ∧ (∀ l ∈ [2, 3], j.due l s.job.step = true → (l, s.job.step) ∈ t.job.open_) ∧
    (j.due 1 s.job.step = true → s.twin.phase = .paired → (1, s.job.step) ∈ t.job.open_)) ∧
  (∀ (s : State) (layer : BitVec 2) (step : BitVec 32), (layer.toNat, step.toNat) ∈ s.job.open_ → ∃ t, exec (.jobProofCommit layer step) s = .next t ∧
    t = { s with job := t.job } ∧ (layer.toNat, step.toNat) ∉ t.job.open_ ∧ (layer.toNat, step.toNat) ∈ t.job.committed ∧
    ∀ k ∈ s.job.committed, k.1 ≠ layer.toNat → k ∈ t.job.committed) ∧
  (∀ (s : State) (c : JobStopCause), s.job.phase = .running ∨ s.job.phase = .between ∨ s.job.phase = .done → ∃ t, exec (.jobStop c) s = .next t ∧ t.job.phase = .waiting ∧
    t.job.open_ = [] ∧ t.job.committed = s.job.committed ∧ (∀ c ∈ t.twin.captures, c.inst ≠ 0xFFFF#16) ∧ sameStacks s t ∧ sameScratch s t) ∧
  (∀ (s : State) (j : Tuning), s.tuning = some j → s.job.phase = .waiting → s.runsJob = true → s.inService = true → j.inst ∉ s.twin.holding →
    j.inst ∉ s.twin.away → ∃ t, exec .jobResume s = .next t ∧
      (s.job.committed = [] → t.job.phase = .running ∧ t.job.step = 1) ∧
      (∀ k, bestProof s.job.committed = some k → k.1 ≠ 1 ∨ s.job.fetch = some (k.2, true) →
        t.job.step = (if k.2 = j.stepsMax.toNat then k.2 else k.2 + 1) ∧ t.job.phase = (if k.2 = j.stepsMax.toNat then .done else .running)) ∧
      (∀ k, bestProof s.job.committed = some k → k.1 = 1 → s.job.fetch = none → s.twin.phase ≠ .unpaired →
        t = { s with out := .twin (.relay (.jobAsk (BitVec.ofNat 48 k.2))) :: s.out, job := { s.job with fetch := some (k.2, false) } })) ∧
  (∀ (s : State) (k : Stroke), s.twinned = true → s.job.fetch = some (k.toNat, false) → ∃ t, exec (.relay (.jobBack k)) s = .next t ∧
    t = { s with job := { s.job with fetch := some (k.toNat, true) } }) ∧
  (∀ (s : State) (k : Stroke), s.twinned = true → ∃ t, exec (.relay (.jobAsk k)) s = .next t ∧ t = { s with out := t.out } ∧
    .twin (.relay (.jobBack k)) ∈ t.out ∧ (∀ g ∈ s.jobGranules, .twin (.data k 0xFFFF#16 (granuleAddr g)
      [granuleOf (s.granuleNow (granuleAddr g))]) ∈ t.out))

/-! ## Start (spec/15) -/

/-- R404, R405, R412, R413, R415, R496: the start to step 7. Main power good begins it, energy counter and averages anew: the plate of the slot that
the boot record names is in effect, a pending one first, or the module is held with the failing check's code. Memory trained, a failed partition
holds it with 0x89, a module without tenant has 0x0A, and another, none of its subchannels out, accepts handshakes and joins when its time is
ready. -/
def Obligations.StartBringsThePlateIntoEffect : Prop :=
  (∀ s : State, s.pwr.aux = true → s.pwr.good = false → s.pwr.grant = false → s.pwr.latch = false → s.sec.destroyed = false →
    let r := s.boot.record
    let slot := fun k : Nat => if k = 0 then s.boot.slot0 else s.boot.slot1
    let a := r.active.toNat % 2
    ∃ t, exec .mainPowerGood s = .next t ∧ t.pwr.rails = true ∧ t.pwr.good = true ∧ t.pwr.energy = 0#64 ∧ t.pwr.avgs = [] ∧ t.pwr.pstage = 0 ∧
      t.label = s.label ∧ t.pending = s.pending ∧ t.boot.health = s.boot.health ∧ t.boot.flash = s.boot.flash ∧
      (∀ p c k, s.verify (slot (if r.pending then 1 - a else a)) = .ok (p, c, k) → t.boot.plate = some p ∧ t.boot.slot = (if r.pending then 1 - a else a) ∧
        t.boot.step = 4 ∧ t.boot.code = 0x04#8 ∧ t.ae.manager = p.domain.manager ∧ t.sec.counter = c ∧ t.sec.setup = p.protection.setup) ∧
      (∀ e, r.pending = false → s.verify (slot a) = .error e → t.boot.plate = none ∧ t.boot.code = BitVec.ofNat 8 e ∧
        t.boot.standing = (if e < 0x89 then .heldDark else .heldVisible)) ∧
      (∀ e, r.pending = true → s.verify (slot (1 - a)) = .error e → t.boot.fellBack = true)) ∧
  (∀ (s : State) (r : TrainResult), s.boot.standing = .starting → s.boot.step = 4 →
    (r.failedParts ≠ [] → ∃ t, exec (.memoryTrainingDone r) s = .next t ∧ t.boot.standing = .heldVisible ∧ t.boot.code = 0x89#8) ∧
    (r.failedParts = [] → r.failedSubs = [] → s.boot.health = [] → (∀ p < s.label.variant.parts, (s.part p).mapOuts = []) →
      ∃ t, exec (.memoryTrainingDone r) s = .next t ∧
        (s.sec.setup.tenant = 0#512 → t.boot.standing = .teardown ∧ t.boot.code = 0x0A#8) ∧
        (s.sec.setup.tenant ≠ 0#512 → s.lostSystem = false → t.boot.standing = .starting ∧ t.boot.trained = true ∧ t.trans.accepting = true ∧
          t.boot.step = (if s.timeReady then 8 else 7) ∧ t.boot.code = (if s.timeReady then 0x06#8 else 0x05#8))))

/-- R406, R407, R408: join, directory and objects. The manager admits a module of its own measurement and refuses another; a worker admitted is
ALIGNED, one refused held with 0x8B. Every module joined, the directory is that of the placement table, but for vacated frames; a module with a block
that then still lies in a vacated frame is held with 0x8C. Another loads its objects, from flash or the store, and without either is held with 0x8D. -/
def Obligations.JoinFormsTheDirectory : Prop :=
  (∀ (s : State) (j : JoinRec) (p : Plate), s.isManager = true → s.boot.plate = some p → j.side = s.side → s.time.worker ≠ .lost →
    ∃ t, exec (.join j) s = .next t ∧ t.out = .mgmt j.module (.joined (p.measure = j.measure)) :: s.out ∧ t.mem = s.mem ∧
      (p.measure = j.measure → (t.info j.module).joined = some j ∧ (t.info j.module).failed = false) ∧
      (p.measure ≠ j.measure → t.ae = s.ae)) ∧
  (∀ s : State, s.boot.standing = .starting → s.boot.step = 8 → s.isManager = false →
    (∃ t, exec (.joined true) s = .next t ∧ t.time.worker = .aligned ∧ t.boot = s.boot ∧ t.mem = s.mem) ∧
    (∃ t, exec (.joined false) s = .next t ∧ t.boot.standing = .heldVisible ∧ t.boot.code = 0x8B#8 ∧ t.time.worker = s.time.worker)) ∧
  (∀ s : State, s.isManager = true → s.boot.standing = .starting → s.boot.step = 8 → s.mem.formed = false → s.allJoined = true →
    s.mem.gotBatch = [] → s.time.stroke.toNat < 2 ^ 48 - 1 →
    ∃ t, exec .directoryForm s = .next t ∧ t.mem.formed = true ∧ t.boot.joinedAll = true ∧
      ∀ b e, SMap.find s.placedAuth b = some e → s.fixedBlock b = true ∨ s.joinVacated (dirModule e) (dirFrame e) = false →
        SMap.find t.mem.auth b = some e) ∧
  (∀ (s : State) (p : Plate), s.boot.plate = some p → s.boot.standing = .starting → s.boot.step = 8 → s.directoryFinal = true →
    (s.stranded = true → ∃ t, exec .objectLoad s = .next t ∧ t.boot.standing = .heldVisible ∧ t.boot.code = 0x8C#8) ∧
    (s.stranded = false → ∃ t, exec .objectLoad s = .next t ∧ t.boot.step = 9 ∧
      ((∀ o ∈ p.objects, (s.goodObject o).isSome = true) → t.boot.standing = .starting ∧ t.boot.code = 0x07#8 ∧ t.boot.loaded = true ∧
        t.boot.dirFinal = true ∧ t.boot.missing = []) ∧
      (∀ o ∈ p.objects, s.goodObject o = none →
        (s.hasStore = false → t.boot.standing = .heldVisible ∧ t.boot.code = 0x8D#8) ∧
        (s.hasStore = true → t.boot.standing = .starting ∧ t.boot.missing ≠ [] ∧ o.name ∈ t.trans.store.getting))))

/-- R410, R411, R412: validation and serving. LOADED is noted at the manager; a worker begins validation: an instance led here without entries passes
at once, one with entries starts the first. An entry ended goes on to the next, or its instance has passed, or a mismatch holds the module with
0x8E, and the other modules of its instance are told. With every instance passed the manager's SERVING takes effect at the next boundary; a start out of time is held with 0x8A or 0x8F. -/
def Obligations.ServingFollowsValidation : Prop :=
  (∀ (s : State) (m : BitVec 10), s.isManager = true → ∃ t, exec (.loaded m) s = .next t ∧ (t.info m).loaded = true ∧ t.mem = s.mem) ∧
  (∀ (s : State) (m : BitVec 10), s.isManager = false → s.boot.loaded = true → s.boot.standing = .starting → s.boot.step = 9 →
    ∃ t, exec (.loaded m) s = .next t ∧ t.boot.step = 10 ∧ t.boot.code = 0x08#8 ∧ ∀ i ∈ s.ledInsts, i ∉ s.twin.away →
      (s.validEntries i = [] → i ∈ t.boot.passed) ∧ (s.validEntries i ≠ [] → SMap.find t.boot.valid i.toNat = some ⟨0, none⟩)) ∧
  (∀ (s : State) (i : BitVec 16) (run : ValidRun) (h : BitVec 32) (x : Session) (v : ValidRec), SMap.find s.boot.valid i.toNat = some run →
    run.handle = some h → s.session ⟨s.me, h⟩ = some x → (s.validEntries i)[run.entry]? = some v →
    let es := validOutputs x.ring v.output.toNat 0
    (validEnded v es = false → exec (.validationEntryEnd i) s = .next s) ∧
    (validEnded v es = true → ∃ t, exec (.validationEntryEnd i) s = .next t ∧
      (validPasses v es = false → t.boot.standing = .heldVisible ∧ t.boot.code = 0x8E#8 ∧
        (s.time.worker ≠ .lost → ∀ m ∈ s.instModules i, m ≠ s.me → .mgmt m (.report (.validated i false)) ∈ t.out)) ∧
      (validPasses v es = true → run.entry + 1 < (s.validEntries i).length → SMap.find t.boot.valid i.toNat = some ⟨run.entry + 1, none⟩) ∧
      (validPasses v es = true → (s.validEntries i).length ≤ run.entry + 1 → i ∈ t.boot.passed ∧ SMap.find t.boot.valid i.toNat = none))) ∧
  (∀ s : State,
    (s.isManager = true → s.boot.standing = .serving → s.time.worker ≠ .lost → ∃ t, exec .serving s = .next t ∧
      (∀ m ∈ s.others, .mgmt m (.serving s.time.stroke) ∈ t.out) ∧ t.boot = s.boot) ∧
    (s.boot.standing = .starting → s.isManager = true → s.allPassed = false → exec .serving s = .next s) ∧
    (s.boot.standing = .starting → s.boot.step = 10 → s.boot.valid = [] → (s.isManager = true → s.allPassed = true) → ∃ t, exec .serving s = .next t ∧
      t.boot.servingAt = some (s.time.stroke + 1#48) ∧ t.boot.standing = .starting) ∧
    (s.boot.standing = .starting → s.boot.plate.isSome = true → ∃ t, exec .startTimeout s = .next t ∧ t.boot.standing = .heldVisible ∧
      t.boot.code = (if s.isManager = true ∧ s.time.master ≠ .locked then 0x8A#8 else 0x8F#8)))

/-! ## The twin pair, takeover and detaching (spec/16) -/

/-- R45, R417, R419, R420, R422, R437: the pair. An agreeing PAIR is acknowledged, another raises an alarm; an unpaired module offers PAIR; with each
side's PAIR_ACK a pair without held sessions is PAIRED; the link down leaves it UNPAIRED, nothing landed and no commit open; a RELAY goes to the
module's own manager, but for the words about a job proof and for the report of a cold reset at the twin, which clears the marks of layer 1 and leaves the pair exposed. -/
def Obligations.PairsFormAndPart : Prop :=
  (∀ (s : State) (p : PairRec), s.joinedNow = true → s.twinUp = true →
    (s.twinned = true → s.boot.plate.map Plate.measure = some p.measure → (s.twinOffset p.ft).natAbs ≤ s.twinBound →
      ∃ t, exec (.pair p) s = .next t ∧ .twin .pairAck ∈ t.out ∧ t.twin.ackSent = true ∧ t.sess.list.map (·.handle) = s.sess.list.map (·.handle)) ∧
    (s.twinned = false ∨ s.boot.plate.map Plate.measure ≠ some p.measure ∨ s.twinBound < (s.twinOffset p.ft).natAbs →
      exec (.pair p) s = .next (s.alarm (devNotice 0x04 0x40 0x30 0)))) ∧
  (∀ s : State, s.joinedNow = true → s.twinUp = true → s.twinned = true →
    (∃ t, exec .pairAck s = .next t ∧ t.twin.ackGot = true ∧
      (s.twin.ackSent = true → s.twin.holding = [] → s.twin.away = [] → s.twin.twinPair ≠ 2#2 → t.twin.phase = .paired)) ∧
    (∀ p, s.boot.plate = some p → (s.twin.ackSent = false ∨ s.twin.ackGot = false) → exec .pairRetry s =
      .next { s with out := .twin (.pair ⟨p.measure, s.time.ft, BitVec.ofNat 8 s.pairCode⟩) :: s.out })) ∧
  (∀ s : State, s.twinned = true → ∃ t, exec .twinLinkDown s = .next t ∧ t.twin.phase = .unpaired ∧ t.twin.landing = [] ∧ t.twin.commits = [] ∧
    t.twin.ackSent = false ∧ t.twin.ackGot = false ∧ (∀ k ∈ t.job.open_, k.1 ≠ 1)) ∧
  (∀ (s : State) (r : RelayRec), s.twinned = true → s.time.worker ≠ .lost → r ≠ .shadowLost →
    (∀ k, r ≠ .jobAsk k ∧ r ≠ .jobBack k) → exec (.relay r) s =
    .next { s with out := .mgmt s.ae.manager (.relay r) :: s.out }) ∧
  (∀ s : State, s.twinned = true → ∃ t, exec (.relay .shadowLost) s = .next t ∧ t.twin = { s.twin with reproving := true } ∧ t.mem = s.mem ∧
    (∀ x ∈ t.sess.list, SMap.find x.marks 1 = none) ∧ t.sess.list.length = s.sess.list.length ∧ (s.isManager = true → t.exposed s.me = true))

/-- R421, R423, R425, R427 to R429, R431: layer 1 and 2. Proof data and records land while the pair is not UNPAIRED, an item that finds the landing area
full waiting with its sender; job data that come back on a resume are written at once. A granule is written at the address it came from, at class 3. A
token enters the shadow ring and the session's history at once. A COMMIT takes its landing data into the shadow, each record in the place of its
session's proof record, its history before the proof discarded and a closed session dropped; it is forwarded by the lead and answered COMMITTED.
COMMITTED ends the commit and advances the marks to its records, tells the lead of a job proof, and at a handover's last stroke lets the instance's
sessions go. PROOF_WRITER stores the whole captures of layer 2 and leaves nothing of layers 2 and 3 uncopied. -/
def Obligations.ProofsLandThenCommit : Prop :=
  (∀ (s : State) (k : Stroke) (i : BitVec 16) (a : GAddr) (gs : List Granule) (rs : List SessionRec),
    let landed (x : LandItem) := Host.Outcome.next (if s.landRoom x then { s with twin := { s.twin with landing := s.twin.landing ++ [x] } } else s)
    exec (.twinData k i a gs) s = (if s.twinned = false then .next s else if i = 0xFFFF#16 ∧ s.side = false then .next (s.writeShadow a gs)
      else if s.twin.phase = .unpaired then .next s else landed (.data k i a gs)) ∧
    exec (.twinRecord k i rs) s = (if s.twinned = false ∨ s.twin.phase = .unpaired then .next s else landed (.recs k i rs))) ∧
  (∀ (s : State) (a : GAddr) (g : Granule) (frame : Nat), s.canonical → a.toNat % 128 = 0 →
    let p := { s.sysPacket (a.toNat / 128) 0 (granuleBytes g) with cls := 3#2 }
    s.atHome p frame → storedAt s.mem.mem (s.writeShadow a [g]).mem.mem (homeByte p frame) (granuleBytes g)) ∧
  (∀ (s : State) (h : BitVec 32) (e : RingEntry), ∃ t, exec (.twinToken h e) s = .next t ∧ (s.twinned = false → t = s) ∧
    (s.twinned = true →
      (∀ x, s.shadowOf h = some x → ∃ y, t.shadowOf h = some y ∧ y.history = x.history ++ [e] ∧ SMap.find y.ring (e.outIndex.toNat % 64) = some e) ∧
      ∀ base frame, s.ringBase s.me = some base → base % 128 = 0 → s.canonical →
        let a := base + 1024 * slotOfHandle h + 16 * (e.outIndex.toNat % 64)
        let p := { s.sysPacket (a / 128) (a % 128) (leBytes 16 (ringEncode e)) with cls := 3#2 }
        s.atHome p frame → storedAt s.mem.mem t.mem.mem (homeByte p frame + a % 128) (leBytes 16 (ringEncode e)))) ∧
  (∀ (s : State) (c : CommitRec), (s.twinned = false → exec (.commit c) s = .next s) ∧
    (s.twinned = true → ∃ u : State, u = { s with out := u.out, twin := { s.twin with
        landing := s.twin.landing.filter fun i => !i.isOf c.stroke c.inst } } ∧
      (s.time.worker ≠ .lost → c.inst ≠ 0xFFFF#16 → (s.instRec c.inst).map (·.lead) = some s.me →
        ∀ m ∈ s.instModules c.inst, m ≠ s.me → .mgmt m (.commit c) ∈ u.out) ∧
      let v := ((s.twin.landing.filter fun i => i.isOf c.stroke c.inst).foldl State.applyLand u).emit (.twin (.committed c))
      (s.takingAt c.inst c.stroke = false → exec (.commit c) s = .next v) ∧
      (s.takingAt c.inst c.stroke = true → exec (.commit c) s = .next (v.completeTaking c.inst c.stroke) ∧
        ∀ h ∈ (v.completeTaking c.inst c.stroke).twin.handovers, h.giving = true ∨ h.inst ≠ c.inst))) ∧
  (∀ (s : State) (k : Stroke) (i : BitVec 16) (r : SessionRec), let t := s.applyLand (.recs k i [r])
    (r.state = 3#4 → t.shadowOf r.handle = none) ∧
    (r.state ≠ 3#4 → ∃ y, t.shadowOf r.handle = some y ∧ y.proofRec = some r ∧ y.commitEnd = r.commitEnd.toNat ∧ y.outNext = r.outNext.toNat ∧
      ∀ x, s.shadowOf r.handle = some x → y.history = x.history.filter fun e => r.commitEnd.toNat ≤ r.lp.toNat + e.outIndex.toNat)) ∧
  (∀ (s : State) (c : CommitRec),
    ((∀ o ∈ s.twin.commits, o.stroke ≠ c.stroke ∨ o.inst ≠ c.inst) → s.capture 1 c.inst c.stroke = none → exec (.committed c) s = .next s) ∧
    ((∃ o ∈ s.twin.commits, o.stroke = c.stroke ∧ o.inst = c.inst) ∨ s.capture 1 c.inst c.stroke ≠ none →
      ∃ t, exec (.committed c) s = .next t ∧ t.mem = s.mem ∧ (∀ o ∈ t.twin.commits, o.stroke ≠ c.stroke ∨ o.inst ≠ c.inst) ∧
        t.capture 1 c.inst c.stroke = none ∧
        (c.inst = 0xFFFF#16 → s.time.worker ≠ .lost →
          t.out = .mgmt (((s.jobInst.bind s.instRec).map (·.lead)).getD s.me) (.report (.proofDone c.stroke c.inst 1)) :: s.out) ∧
        (c.inst ≠ 0xFFFF#16 → ∀ k, s.capture 1 c.inst c.stroke = some k → ∀ r ∈ k.recs, (∀ q ∈ k.recs, q.key = r.key → q = r) →
          ∀ x, t.session r.key = some x → SMap.find x.marks 1 = some (recMark r.record)) ∧
        (c.inst ≠ 0xFFFF#16 → s.givesAfter c.inst c.stroke = true →
          (∀ h ∈ t.twin.handovers, h.giving = false ∨ h.inst ≠ c.inst) ∧ c.inst ∉ t.twin.holding ∧
          ∀ x ∈ t.sess.list, x.inst = c.inst → x.held2 = s.twin.holding.contains c.inst → x.valid.isSome = true))) ∧
  (∀ s : State, ∃ t, exec .proofWriter s = .next t ∧ (∀ c ∈ t.twin.captures, c.layer = 2 → c.closed = false) ∧
    (s.mem.waits = [] → ∀ c ∈ t.twin.captures, c.layer = 2 ∨ c.layer = 3 → c.left = []) ∧
    ∀ c ∈ s.twin.captures, c.layer = 2 → c.closed = true → (∀ d ∈ s.twin.captures, d.layer = 2 → d.inst = c.inst → d = c) →
      ∃ p ∈ t.boot.proofs, p.layer = 2 ∧ p.inst = c.inst ∧ p.point = c.point ∧ p.epoch = s.epoch)

/-- R433 to R436, R440, R441: takeover and succession. The twin side keeps an ordered takeover for its next close; the failing side gives the
instances up, none of their sessions running on; complete, a takeover is forgotten. A deputy that misses its manager succeeds at the next
boundary, and a SUCCESSION makes another module manager of every other, which leaves an old manager LOST. -/
def Obligations.TakeoversMoveInstances : Prop :=
  (∀ (s : State) (r : TakeoverRec), s.twinned = true →
    (r.fromSide = false → s.isManager = false → (∀ w ∈ s.twin.takeovers, w.insts ≠ r.insts ∨ w.detected ≠ r.detected) →
      exec (.takeover r) s = .next { s with twin := { s.twin with takeovers := s.twin.takeovers ++
        [⟨r.insts, r.detected, BitVec.ofNat 48 (s.time.stroke.toNat + 1), false, false⟩] } }) ∧
    (r.fromSide = true → (∃ i ∈ r.insts, i ∈ s.instNums) → ∃ t, exec (.takeover r) s = .next t ∧
      (∀ x ∈ t.sess.list, x.inst ∈ r.insts → x.inst ∈ s.instNums → x.suspended.isSome = true ∨ x.valid.isSome = true) ∧
      (∀ i ∈ r.insts, i ∈ s.instNums → i ∈ t.twin.away ∧ i ∉ t.twin.holding ∧ i ∉ t.boot.passed))) ∧
  (∀ (s : State) (insts : List (BitVec 16)) (w : TakeoverState), w ∈ s.twin.takeovers → (∀ i ∈ w.insts, i ∈ insts) →
    w.failing = true ∨ (w.entered = true ∧ w.at_.toNat + 1 ≤ s.su.doneWork.toNat) →
    ∃ t, exec (.takeoverComplete insts) s = .next t ∧ w ∉ t.twin.takeovers ∧ t.mem = s.mem ∧ t.parts = s.parts) ∧
  (∀ (s : State) (c : SuccessionCause), s.isDeputy = true → s.isManager = false → s.twin.succAt = none → s.time.ftSet = true →
    ∃ t, exec (.deputySuccession c) s = .next t ∧ t.twin.succAt = some (s.time.stroke + 1#48, s.me) ∧ t.ae = s.ae) ∧
  (∀ (s : State) (k : Stroke) (m : BitVec 10), s.boot.plate.isSome = true → s.ae.manager ≠ m → ∃ t, exec (.succession k m) s = .next t ∧
    t.ae.manager = m ∧ t.ae.deputy = none ∧ t.ae.isOpen = false ∧ t.mem = s.mem ∧
    (s.isManager = true → t.time.worker = (if s.twin.detaching then .aligned else .lost)) ∧ (s.isManager = false → t.time.worker = s.time.worker))

/-- R438, R439, R442: what leaves by plan and what waits. A handover is entered for its stroke, as one that gives or takes the instance, and told to
the twin and to those who must know; a second one is not. Once every module of its instance is in service a
suspended session is restored from the newest committed proof, at its OUT_NEXT, its next output due after the restore stroke, under exclusion 0x9 when
it has pages, and from layer 3 for the first endpoint of its client; one whose restore has not begun within RESTORE_WAIT closes with reason 5 and its
exclusion's code. A module detaches only while serving, PAIRED and with no handover running, its manager's role and its instances going two strokes
ahead; any other detach is refused with an alarm. -/
def Obligations.HandoversRestoresAndDetaching : Prop :=
  (∀ (s : State) (i : BitVec 16) (taking : Bool) (h : Stroke),
    (s.twinned = false ∨ (s.me ∉ s.instModules i ∧ s.isManager = false ∧ s.twin.detaching = false) ∨ (∃ x ∈ s.twin.handovers, x.inst = i) →
      exec (.handover ⟨i, taking⟩ h) s = .next s) ∧
    (s.twinned = true → s.me ∈ s.instModules i ∨ s.isManager = true ∨ s.twin.detaching = true → (∀ x ∈ s.twin.handovers, x.inst ≠ i) →
      ∃ t, exec (.handover ⟨i, taking⟩ h) s = .next t ∧ t = { s with twin := t.twin, out := t.out } ∧
        t.twin = { s.twin with handovers := s.twin.handovers ++ [⟨i, h, !taking⟩] } ∧
        (s.me ∈ s.instModules i → .twin (.handover ⟨i, !taking⟩ h) ∈ t.out) ∧
        (s.time.worker ≠ .lost → (s.isManager = true → ∀ m ∈ s.instModules i, m ≠ s.me → .mgmt m (.handover ⟨i, taking⟩ h) ∈ t.out) ∧
          (s.isManager = false → .mgmt s.ae.manager (.handover ⟨i, taking⟩ h) ∈ t.out)))) ∧
  (∀ (s : State) (port : BitVec 10) (slot : BitVec 15) (src : RestoreSource) (r : SessionRec),
    let found := s.sess.list.find? fun x => x.port = port && x.slot = slot.toNat && x.suspended.isSome && x.closing.isNone && x.handle = r.handle
    (found = none → exec (.suspendedRestore port slot src r) s = .next s) ∧
    ∀ x, found = some x → s.session x.key = some x →
      (s.inService = false ∨ (∃ m ∈ s.instModules x.inst, (s.info m).failed = true) → exec (.suspendedRestore port slot src r) s = .next s) ∧
      (s.inService = true → (∀ m ∈ s.instModules x.inst, (s.info m).failed = false) →
        let stored := (s.storedFor (if src = .flash then 2 else 3) x.key).bind fun p => (p.parts.find? fun q => q.key = x.key).map (·.record)
        let q := stored.getD r
        ∃ t y, exec (.suspendedRestore port slot src r) s = .next t ∧ t.session x.key = some y ∧ y.suspended = none ∧ y.sendNext = q.outNext.toNat ∧
          y.commitEnd = q.commitEnd.toNat ∧ y.pageCount = q.pageCount.toNat ∧ y.lastRow = s.time.stroke ∧ (src = .store → y.ep = 0xFF#8) ∧
          (s.time.stroke.toNat + 2 < 2 ^ 48 → s.time.stroke.toNat + 2 ≤ y.due q.outNext.toNat) ∧
          (∀ e ∈ t.sess.excls, e.same 5 (some x.key) = false ∧ e.same 6 (some x.key) = false) ∧
          (q.pageCount ≠ 0#32 → ∃ e ∈ t.sess.excls, e.same 9 (some x.key) = true))) ∧
  (∀ (s : State) (slot : BitVec 15),
    let found := s.sess.list.find? fun x => x.port = s.me && x.slot = slot.toNat && x.suspended.isSome && x.closing.isNone
    (found = none → exec (.restoreWaitExpiry slot) s = .next s) ∧
    ∀ (x : Session) (q : Word64 × BitVec 4), found = some x → s.session x.key = some x → x.suspended = some q →
      ∃ t y c, exec (.restoreWaitExpiry slot) s = .next t ∧ t.session x.key = some y ∧ y.closing = some c ∧ c.reason = 5#8 ∧ c.excl = q.2 ∧
        (∀ e ∈ t.sess.excls, e.same q.2.toNat (some x.key) = false) ∧
        let due := q.1.toNat + ((s.proofRec.map fun p => p.restoreWait.toNat).getD 600) * 1000000000
        (due < 2 ^ 64 → due ≤ t.time.mono.toNat)) ∧
  (∀ s : State,
    (s.boot.standing ≠ .serving ∨ s.twin.detaching = true → exec .detach s = .next s) ∧
    (s.boot.standing = .serving → s.twin.detaching = false →
      (s.twinned = false ∨ s.twin.phase ≠ .paired ∨ s.twin.handovers ≠ [] ∨ (s.isManager = true ∧ s.deputyToAsk = none) →
        exec .detach s = .next ({ s with pwr := { s.pwr with refused := true } }.alarm (devNotice 0x0D 0x40 0x30 0))) ∧
      (s.twinned = true → s.twin.phase = .paired → s.twin.handovers = [] → (s.isManager = true → s.deputyToAsk ≠ none) →
        ∃ t, exec .detach s = .next t ∧ t.twin.detaching = true ∧ t.pwr = s.pwr ∧ t.mem = s.mem ∧ t.parts = s.parts ∧ t.sess = s.sess ∧
          (∀ i ∈ s.instNums, (∃ h ∈ t.twin.handovers, h.inst = i ∧ h.giving = true ∧ h.h = s.time.stroke + 2#48) ∧
            .twin (.handover ⟨i, true⟩ (s.time.stroke + 2#48)) ∈ t.out) ∧
          (∀ d, s.isManager = true → s.deputyToAsk = some d → t.ae.manager = d ∧ t.time.worker = .aligned) ∧
          (s.isManager = false → s.time.worker ≠ .lost → s.foreignFrames ≠ [] →
            .mgmt s.ae.manager (.report (.leaving s.foreignFrames)) ∈ t.out))))

/-! ## Faults and recovery (spec/18) -/

/-- R462, R463, R466, R474: what is heard and reported. A heartbeat is noted at the MC; 8 ms without one lead to HANG, a snapshot on the tracing port, and
a device reset. A module's own beat goes to the manager, which notes beats and takes what a module has reported; what a port module has closed ends
everywhere. A module failed is declared by the manager, once, with its alarm, its migrations cancelled and the takeover of its instances ordered, or
their sessions suspended; elsewhere the declaration suspends them where there is no twin. A stroke failed here is to be restored once and told; one of
a later stroke fails as it comes. -/
def Obligations.BeatsAndFailuresAreNoted : Prop :=
  (∀ (s : State) (p : BitVec 4), p.toNat < s.label.variant.parts →
    (∃ t, exec (.heartbeat p) s = .next t ∧ t = { s with parts := t.parts } ∧ t.part p.toNat = { s.part p.toNat with beatAt := s.time.mono } ∧
      sameScratch s t) ∧
    ((s.part p.toNat).reset ≠ none ∨ s.boot.standing = .auxOnly → exec (.heartbeatLoss p) s = .next s) ∧
    ((s.part p.toNat).reset = none → s.boot.standing ≠ .auxOnly →
      ∃ u : State, exec (.heartbeatLoss p) s = .next u.resetDevice ∧ u = { s with time := u.time, obs := u.obs, out := u.out } ∧
        (let n := devNotice 0x0C p.toNat 0x20 p.toNat
         ∃ e ∈ u.obs.alarms ++ u.obs.reserved, e.space = n.space ∧ e.code = n.code ∧ e.detail = n.detail) ∧
        (let due := (s.part p.toNat).beatAt.toNat + 8000000
         due < 2 ^ 64 → due ≤ u.time.mono.toNat) ∧
        (s.traceEntry.isSome = true → s.obs.linkUp = true → ∃ f, .traceFrame f ∈ u.out ∧ f.content = 2) ∧
        (s.sec.destroyed = false → restarted u u.resetDevice))) ∧
  (∀ (s : State) (m : BitVec 10) (heard : List ModReport),
    (s.boot.plate = none → exec (.moduleBeat ⟨m, heard⟩) s = .next s) ∧
    (s.boot.plate.isSome = true →
      (s.isManager = true → ∃ u : State, u = { s with ae := u.ae } ∧ (u.info m).beatAt = s.time.mono ∧
        exec (.moduleBeat ⟨m, heard⟩) s = .next (if m = s.me then u else heard.foldl (State.heed m) u)) ∧
      (s.isManager = false → exec (.moduleBeat ⟨m, heard⟩) s =
        .next (if m = s.me then s.send s.ae.manager .beat else heard.foldl (State.heed m) s)))) ∧
  (∀ (s : State) (m : BitVec 10), s.isManager = true →
    (∀ l, let i := (State.heed m s (.lag l)).info m
      i.lag = l.lag ∧ i.lagStroke = l.stroke ∧ i.incomplete = l.incomplete ∧ i.overrun = l.overrun) ∧
    (∀ st b hot, ((State.heed m s (.band st b hot)).info m).hot = hot) ∧ (∀ yes, ((State.heed m s (.diverged yes)).info m).diverged = yes) ∧
    ∀ p n frames j, (s.info m).joined = some j → let i := (State.heed m s (.capacity p n frames)).info m
      (i.joined.map (·.capacity)) = some frames ∧ i.nMin = if (s.info m).nMin = 0 then n else min (s.info m).nMin n) ∧
  (∀ (s : State) (m port : BitVec 10) (h : BitVec 32) (unused : Bool) (x : Session), s.session ⟨port, h⟩ = some x → x.closing = none →
    ∃ y c, (State.heed m s (.closed port h unused)).session ⟨port, h⟩ = some y ∧ y.closing = some c ∧ c.reason = (if unused then 3#8 else 1#8)) ∧
  (∀ (s : State) (m : BitVec 10) (c : FailCause),
    let hit := s.concerned m c
    let here := hit.filter s.instNums.contains
    let suspended (t : State) := ∀ x ∈ t.sess.list, x.inst ∈ here → x.valid = none → x.suspended.isSome = true ∨ x.closing.isSome = true
    (s.boot.plate = none ∨ (s.isManager = true ∧ (s.info m).failed = true) → exec (.moduleFailed m c) s = .next s) ∧
    (s.boot.plate.isSome = true → s.isManager = true → (s.info m).failed = false →
      ∃ t, exec (.moduleFailed m c) s = .next t ∧ m.toNat ∈ t.ae.declared ∧ t.ae.dirty = true ∧
        (wholeModule c = true → (t.info m).failed = true ∧ ∀ g ∈ t.mem.migs, g.oldMod = m ∨ g.newMod = m → g.switched = true ∨ g.doomed = true) ∧
        (hit ≠ [] → s.canOrder hit = true → .twin (.relay (.takeover ⟨hit, s.time.stroke, false⟩)) ∈ t.out) ∧
        (s.canOrder hit = false → suspended t)) ∧
    (s.boot.plate.isSome = true → s.isManager = false → ∃ t, exec (.moduleFailed m c) s = .next t ∧ m.toNat ∈ t.ae.declared ∧
      (s.twinned = true → t = { s with ae := t.ae }) ∧ (s.twinned = false → suspended t))) ∧
  (∀ (s : State) (i : BitVec 16) (w : Stroke) (own : Bool),
    let known := (i, w) ∈ s.su.restore ∨ (i, w) ∈ s.su.doomed ∨ (w = s.su.work ∧ i ∈ s.su.failed)
    (i ∉ s.instNums → exec (.strokeFailed i w own) s = .next (if s.isManager = true ∧ (i, w) ∉ s.su.restore then
      { s with su := { s.su with restore := s.su.restore ++ [(i, w)] } } else s)) ∧
    (i ∈ s.instNums → own = true ∧ (w ≠ s.su.work ∨ i ∈ s.su.failed) → exec (.strokeFailed i w own) s = .next s) ∧
    (i ∈ s.instNums → own = false → known → exec (.strokeFailed i w own) s = .next s) ∧
    (i ∈ s.instNums → own = false → ¬known → s.su.work.toNat < w.toNat →
      exec (.strokeFailed i w own) s = .next { s with su := { s.su with doomed := s.su.doomed ++ [(i, w)] } }) ∧
    (i ∈ s.instNums → ¬known → w.toNat ≤ s.su.work.toNat → own = false ∨ w = s.su.work → ∃ t, exec (.strokeFailed i w own) s = .next t ∧
      (i, w) ∈ t.su.restore ∧ (w = s.su.work → i ∈ t.su.failed) ∧
      (own = true → s.time.worker ≠ .lost → ∀ r, s.instRec i = some r → ∀ d, d ∈ r.modules ∨ d = s.ae.manager → d ≠ s.me →
        .mgmt d (.strokeFailed i w) ∈ t.out)))

/-- R461, R464 to R473, R477, R479: resets. An engine reset ends the engine's commands, advances its GEN, makes a self-test of it due and fails the stroke
for the instances it was at work for, unless a self-test began it; a partition reset, asked for or in place of an engine reset that is late, stops the
partition and is reported; confirmed self-refresh makes it warm, otherwise what it held is lost and its blocks are held; its return puts it back, and
one that does not come back in time is a device reset. A held block is rewritten from its source, from the twin's block or with zeros. A self-test
waits its turn; its first failure begins an engine reset, a second in a row a partition reset, one during a partition reset a device reset. -/
def Obligations.ResetsStopAndReturn : Prop :=
  (∀ (s : State) (p : BitVec 4) (e : BitVec 8), p.toNat < s.label.variant.parts →
    let k := p.toNat
    let codes := resetCodes e.toNat
    let stopped (t : State) := ∃ x, (t.part k).reset = some x ∧ x.warm = none ∧ (t.part k).engResets = [] ∧
      ∀ c ∈ engineCodes, (t.part k).unitCmds (unitOf c) = []
    let since := (s.part k).engResets.find? fun r => r.engine = e.toNat
    ((s.part k).reset ≠ none ∨ codes = [] → exec (.engineReset p e) s = .next s) ∧
    ((s.part k).reset = none → codes ≠ [] → ∃ t, exec (.engineReset p e) s = .next t ∧ (t.part k).reset = none ∧
      (∀ c ∈ codes, (t.part k).unitCmds (unitOf c) = [] ∧ (t.part k).genOf (unitOf c) = (s.part k).genOf (unitOf c) + 1#16 ∧
        (testable c = true → c ∈ (t.part k).pendTests)) ∧
      (((s.part k).engResets.find? fun r => codes.contains r.engine) = none → ∀ i ∈ (s.part k).failing codes,
        (i, s.su.work) ∉ s.su.restore → (i, s.su.work) ∉ s.su.doomed → i ∈ t.su.failed)) ∧
    (since = none → exec (.engineResetBound p e) s = .next s) ∧
    (∀ r, since = some r → (s.part k).reset = none → ∃ t, exec (.engineResetBound p e) s = .next t ∧ stopped t) ∧
    (s.boot.step < 4 ∨ (s.part k).reset ≠ none → exec (.partitionReset p) s = .next s) ∧
    (4 ≤ s.boot.step → (s.part k).reset = none → ∃ t, exec (.partitionReset p) s = .next t ∧ stopped t ∧
      (s.boot.plate.isSome = true → s.isManager = false → s.time.worker ≠ .lost → .mgmt s.ae.manager (.failure (some k)) ∈ t.out)) ∧
    (testable e.toNat = false → exec (.selfTestRequest p e) s = .next s ∧ exec (.selfTestFail p e) s = .next s) ∧
    (testable e.toNat = true →
      (∃ t, exec (.selfTestRequest p e) s = .next t ∧ t = { s with parts := t.parts } ∧ e.toNat ∈ (t.part k).pendTests) ∧
      ((s.part k).reset ≠ none → exec (.selfTestFail p e) s = .next s.resetDevice) ∧
      ((s.part k).reset = none → e.toNat ∉ (s.part k).testFails → ∃ t, exec (.selfTestFail p e) s = .next t ∧ t = { s with parts := t.parts } ∧
        e.toNat ∈ (t.part k).testFails ∧ ∃ r ∈ (t.part k).engResets, r.engine = e.toNat) ∧
      ((s.part k).reset = none → e.toNat ∈ (s.part k).testFails → ∃ t, exec (.selfTestFail p e) s = .next t ∧ stopped t))) ∧
  (∀ (s : State) (p : BitVec 4), p.toNat < s.label.variant.parts →
    let k := p.toNat
    ((s.part k).reset = none → exec (.selfRefreshConfirm p true) s = .next s ∧ exec (.selfRefreshConfirm p false) s = .next s ∧
      exec (.partitionReturn p) s = .next s ∧ exec (.partitionResetBound p) s = .next s) ∧
    ∀ x, (s.part k).reset = some x →
      (x.warm = none → (∃ t y, exec (.selfRefreshConfirm p true) s = .next t ∧ (t.part k).reset = some y ∧ y.warm = some true ∧ t.mem = s.mem) ∧
        (∃ t y, exec (.selfRefreshConfirm p false) s = .next t ∧ (t.part k).reset = some y ∧ y.warm = some false ∧
          (x.since.toNat + 5000000 < 2 ^ 64 → x.since.toNat + 5000000 ≤ t.time.mono.toNat) ∧
          (∀ b ∈ s.blocksOn k, b ∈ t.mem.held ∨ b ∈ t.mem.fenced) ∧
          (∀ m, (s.part k).evacuation = some m → ∃ n ∈ (t.part k).mapOuts, n.sub = m.sub ∧ n.out = true) ∧
          ∀ a pl, s.placeOfGranule (a / blockBytes) (a % blockBytes / 128) = some pl → pl.part = k →
            (∀ d, s.ownDir = some d → ∀ i < d.blockCount.toNat, d.homeOf i ≠ (s.me.toNat, a / blockBytes)) → t.mem.mem.read a = 0#8)) ∧
      (x.warm ≠ none → exec (.selfRefreshConfirm p true) s = .next s ∧ exec (.selfRefreshConfirm p false) s = .next s) ∧
      (x.warm = none ∨ s.boot.step < 4 → exec (.partitionReturn p) s = .next s) ∧
      (x.warm ≠ none → 4 ≤ s.boot.step → ∃ t, exec (.partitionReturn p) s = .next t ∧ (t.part k).reset = none ∧
        let due := x.since.toNat + 1900000000 + repairTime (s.pendingRepairs k)
        (due < 2 ^ 64 → due ≤ t.time.mono.toNat)) ∧
      ∃ u : State, exec (.partitionResetBound p) s = .next u.resetDevice ∧ u = { s with time := u.time } ∧
        (x.since.toNat + 6000000000 < 2 ^ 64 → x.since.toNat + 6000000000 ≤ u.time.mono.toNat) ∧
        (u.boot.standing ≠ .auxOnly → u.sec.destroyed = false → restarted u u.resetDevice)) ∧
  (∀ (s : State) (b : BitVec 32) (data : List Byte),
    let use := s.useOf b.toNat
    let paired := s.twinned = true ∧ s.twin.phase ≠ .unpaired
    let twinOnly := use = 7 ∨ (use = 5 ∧ s.dataCovers b.toNat = true)
    let ready (h : BitVec 10 × Nat) := s.homeOf b.toNat = some h ∧ h.1 = s.me ∧ s.frameHeld h.2 = false
    (b.toNat ∉ s.mem.held ∨ (∀ h, ¬ready h) → exec (.coldRewrite b data) s = .next s) ∧
    ∀ h, b.toNat ∈ s.mem.held → ready h →
      (twinOnly → ¬paired → exec (.coldRewrite b data) s = .next s.resetDevice) ∧
      (¬twinOnly ∨ paired → s.canonical → s.mem.waits = [] → ∃ t, exec (.coldRewrite b data) s = .next t ∧ b.toNat ∉ t.mem.held ∧
        b.toNat ∉ t.mem.fenced ∧ t.parts = s.parts ∧ (use = 6 → t.mem.mem = s.mem.mem) ∧
        (use ≠ 6 → storedAt s.mem.mem t.mem.mem (h.2 * blockBytes) (padTo blockBytes 0#8
          (if use = 1 ∨ use = 2 then s.sourceOf b.toNat else if twinOnly then data else [])))))

/-- R241, R474, R475, R476, R482: the ends of a tenancy's state. A device reset keeps flash, protection state and the power controller's readings and starts
anew, a subchannel that no longer responds recorded; a teardown named by the manager comes at the next boundary, one whose stroke has come leaves no session, endpoint or memory content, and the
module holds with 0x0A, its tenant root destroyed. -/
def Obligations.DeviceResetAndTeardownForget : Prop :=
  (∀ (s : State) (c : ResetCause), s.boot.standing ≠ .auxOnly → s.sec.destroyed = false → ∃ t, exec (.deviceReset c) s = .next t ∧
    restarted s t ∧ (∀ g, c = .lostSubchannel g → g.toNat ∉ s.mem.lost → ∃ e, t.boot.health = s.boot.health ++ [e] ∧ e.kind = 3#4) ∧
    ((∀ g, c = .lostSubchannel g → g.toNat ∈ s.mem.lost) → t.boot.health = s.boot.health)) ∧
  (∀ (s : State) (c : ResetCause), s.boot.standing = .auxOnly → exec (.deviceReset c) s = .next s) ∧
  (∀ s : State, s.boot.plate.isSome = true → s.su.teardown = none → s.boot.standing ≠ .teardown →
    (s.isManager = true → ∃ t, exec (.tenantTeardown none) s = .next t ∧ t.su.teardown = some (s.time.stroke + 1#48) ∧ t.mem = s.mem ∧
      (s.time.worker ≠ .lost → ∀ m ∈ s.others, .mgmt m (.teardown (s.time.stroke + 1#48)) ∈ t.out)) ∧
    (∀ k : Stroke, s.time.stroke.toNat < k.toNat → ∃ t, exec (.tenantTeardown (some k)) s = .next t ∧ t.su.teardown = some k ∧ t.mem = s.mem) ∧
    (∀ k : Stroke, k.toNat ≤ s.time.stroke.toNat → ∃ t, exec (.tenantTeardown (some k)) s = .next t ∧ t.boot.standing = .teardown ∧
      t.boot.code = 0x0A#8 ∧ t.sess = .reset ∧ t.trans.eps = [] ∧ t.mem.mem = [] ∧ t.sec.root = none ∧ t.obs.alarms = [] ∧ t.obs.events = [] ∧
      (∀ p < 16, (t.part p).sp = []) ∧ t.label = s.label))

/-! ## Power, temperature and the sideband (spec/19, spec/22) -/

/-- R483 to R487, R494, R495, R497: the power controller's grid. A 10 ms average enters the last 1,000 and the energy counter, and the stage moves by
at most one: up to 6 where the 1 s or the 10 s average exceeds its limit, down where both lie below theirs, not at all during a supply warning. At
the floor a limit still exceeded is an alarm. At 10 ms multiples the thermal stage rises to at most 4 while a die reads 100 °C, and falls below 95
°C. -/
def Obligations.StagesFollowPowerAndHeat : Prop :=
  (∀ (s : State) (r : PowerReading), s.pwr.aux = true → s.pwr.rails = true →
    let a := (r.power.toNat :: s.pwr.avgs).take 1000
    let up := (a.take 100).length * (10 * s.domain.powerLimit.toNat + 1000) < (a.take 100).sum ∨
      a.length * (10 * s.domain.powerLimit.toNat) < a.sum
    let down := (a.take 100).sum ≤ (a.take 100).length * (10 * s.domain.powerLimit.toNat + 500) ∧
      a.sum ≤ a.length * (10 * s.domain.powerLimit.toNat - 250)
    ∃ t, exec (.powerStageUpdate r) s = .next t ∧ t.pwr.now = r ∧ t.pwr.avgs = a ∧ t.pwr.energy = s.pwr.energy + BitVec.ofNat 64 r.power.toNat ∧
      t.pwr.rails = true ∧ t.mem = s.mem ∧ t.parts = s.parts ∧
      (s.pwr.warning = true → t.pwr.pstage = s.pwr.pstage) ∧
      (s.pwr.warning = false → up → t.pwr.pstage = min (s.pwr.pstage + 1) 6) ∧
      (s.pwr.warning = false → ¬ up → down → t.pwr.pstage = s.pwr.pstage - 1) ∧
      (s.pwr.warning = false → ¬ up → ¬ down → t.pwr.pstage = s.pwr.pstage)) ∧
  (∀ s : State, s.pwr.pstage = 6 → s.over1s = true ∨ s.over10s = true → ∃ t u : State, exec .powerFloor s = .next t ∧
    t = u.alarm (devNotice 0x07 0x40 0x32 6) ∧ u.obs = s.obs ∧ t.pwr.floorAt = some t.time.mono) ∧
  (∀ (s : State) (cd ld : List Int) (inlet : Int), s.pwr.rails = true →
    let g := s.reachGrid (s.nextGrid 1000000 s.pwr.heatAt)
    let c := cd.take s.label.variant.parts
    ∃ t, exec (.dieTemperatureRead cd ld inlet) s = .next t ∧ t.pwr.cd = c ∧ t.pwr.ld = ld.take s.label.variant.linkDies ∧ t.pwr.inlet = inlet ∧
      t.mem = s.mem ∧ t.parts = s.parts ∧ t.time = g.time ∧
      (g.gridTime % 10000000 ≠ 0 → t.pwr.tstage = s.pwr.tstage) ∧
      (g.gridTime % 10000000 = 0 → (∃ x ∈ c, 200 ≤ x) → t.pwr.tstage = min (s.pwr.tstage + 1) 4) ∧
      (g.gridTime % 10000000 = 0 → (∀ x ∈ c, x < 190) → t.pwr.tstage = s.pwr.tstage - 1) ∧
      (g.gridTime % 10000000 = 0 → (∀ x ∈ c, x < 200) → (∃ x ∈ c, 190 ≤ x) → t.pwr.tstage = s.pwr.tstage))

/-- R489, R491, R492, R495, R548, R549, R551, R552: supply, trip, auxiliary domain and its outputs. A droop is recorded; main below 44.0 V is a
warning until 45.0 V; a supply reset, an overvoltage above 60.0 V and a trip switch the rails off with all that is volatile; the latch of a trip
is released after 60 s but not after the third in an hour; a claim on the flash is granted while main power is not good; an output at fault goes
off until it is clear. -/
def Obligations.SupplyEventsSwitchTheModule : Prop :=
  (∀ (s : State) (p : BitVec 4) (us : BitVec 32), p.toNat < s.label.variant.parts → s.pwr.rails = true → ∃ t, exec (.railDroop p us) s = .next t ∧
    t.pwr = s.pwr ∧ t.mem = s.mem ∧ t.parts = s.parts ∧ t.su = { s.su with stretch := t.su.stretch }) ∧
  (∀ (s : State) (mv : BitVec 17), s.pwr.rails = true →
    (s.pwr.warning = false → mv.toNat < 44000 → ∃ t, exec (.supplyWarning mv) s = .next t ∧ t.pwr.warning = true ∧ t.pwr.pstage = s.pwr.pstage ∧
      (∃ o ∈ t.pwr.open_, o.reason = 5#8)) ∧
    (44000 ≤ mv.toNat → exec (.supplyWarning mv) s = .next s) ∧
    (s.pwr.warning = true → (∃ o ∈ s.pwr.open_, o.reason = 5#8) →
      (mv.toNat < 45000 → exec (.supplyWarningEnd mv) s = .next s) ∧
      (45000 ≤ mv.toNat → ∃ t, exec (.supplyWarningEnd mv) s = .next t ∧ t.pwr.warning = false ∧ t.mem = s.mem)) ∧
    (∀ c ∈ [Instr.supplyReset, .mainOvervoltage mv], (c = .mainOvervoltage mv → 60000 < mv.toNat) → ∃ t, exec c s = .next t ∧ t.pwr.rails = false ∧
      t.pwr.good = false ∧ t.boot.standing = .auxOnly ∧ t.boot.plate = none ∧ t.mem.mem = [] ∧ t.boot.flash = s.boot.flash ∧ t.sec = s.sec) ∧
    (mv.toNat ≤ 60000 → exec (.mainOvervoltage mv) s = .next s)) ∧
  (∀ (s : State) (d : BitVec 8), s.pwr.aux = true → s.pwr.rails = true → ∃ t, exec (.thermalTrip d) s = .next t ∧ t.pwr.rails = false ∧
    t.pwr.latch = true ∧ t.pwr.tripDie = d ∧ t.pwr.trips = s.pwr.trips + 1 ∧ t.statusCode = 0x0C ∧ t.mem.mem = []) ∧
  (∀ s : State, s.pwr.latch = true →
    (s.pwr.tripTimes.length < 3 → ∃ t, exec .tripLatchRelease s = .next t ∧ t.pwr.latch = false ∧ t.pwr.rails = s.pwr.rails) ∧
    (3 ≤ s.pwr.tripTimes.length → exec .tripLatchRelease s = .next s)) ∧
  (∀ (s : State) (a : BitVec 3), (s.pwr.aux = false → ∃ t, exec (.auxDomainStart a) s = .next t ∧ t.pwr.aux = true ∧ t.pwr.smbAddr = a ∧
      t.pwr.latch = false ∧ t.pwr.trips = 0 ∧ t.pwr.auxAt = s.time.mono ∧ t.boot = s.boot) ∧
    (s.pwr.aux = true → ∃ t, exec .auxDomainStop s = .next t ∧ t.pwr.aux = false ∧ t.pwr.rails = false ∧ t.pwr.latch = false ∧ t.pwr.trips = 0 ∧
      t.boot.code = 0#8)) ∧
  (∀ (s : State) (c : Bool), ∃ t, exec (.cfgReq c) s = .next t ∧ t.pwr.grant = (c && s.pwr.aux && !s.pwr.good) ∧ t.pwr.claim = c ∧ t.boot = s.boot) ∧
  (∀ (s : State) (o : AuxOut), s.outExists o = true →
    (s.pwr.rails = true → o ∉ s.pwr.outOff → ∃ t, exec (.auxiliaryOutputFault o) s = .next t ∧ o ∈ t.pwr.outOff ∧
      (o = .host → t.trans.linkUp = false ∧ ∃ e ∈ t.sess.excls, e.same 8 none = true) ∧ (o = .tracing → t.obs.linkUp = false)) ∧
    exec (.auxiliaryOutputRetry o true) s = .next s ∧
    ∃ t, exec (.auxiliaryOutputRetry o false) s = .next t ∧ o ∉ t.pwr.outOff ∧ t.parts = s.parts ∧ t.mem = s.mem)

/-- R553 to R557: the sideband. A read of a listed code answers the content of Table 22.5, low byte first, and changes nothing else; without the
auxiliary domain nothing answers; the alert response is the address, answered while the alert is asserted; a detach request is a detach where the
module serves, waits where it starts, and is ignored elsewhere. -/
def Obligations.SidebandAnswersItsContent : Prop :=
  (∀ s : State, s.pwr.aux = true → ∃ w g i, w < 65536 ∧ g < 65536 ∧ i < 65536 ∧
    w / 256 = s.statusCode ∧ w.testBit 7 = s.pwr.refused ∧ w.testBit 6 = s.pwr.grant ∧ (w.testBit 5 = true ↔ s.pwr.outOff ≠ []) ∧
    w.testBit 4 = s.pwr.inletHigh ∧ w.testBit 3 = s.sec.destroyed ∧
    (s.pwr.pstage ≤ 6 → s.pwr.tstage ≤ 4 → g / 256 = max s.pwr.pstage s.pwr.tstage ∧
      ∀ k < 8, (g.testBit k = true ↔ ∃ o ∈ s.pwr.open_, o.reason.toNat = k + 1)) ∧
    i / 256 = s.pwr.tripDie.toNat ∧ i.testBit 0 = s.pwr.latch ∧ i / 2 % 128 = s.pwr.trips % 128 ∧
    ∀ c bytes, (c, bytes) ∈ [(Instr.status, leBytes 2 w), (.power, leBytes 2 s.pwr.now.power.toNat), (.energy, leBytes 8 s.pwr.energy.toNat),
      (.mainV, leBytes 2 s.pwr.now.mainV.toNat), (.mainI, leBytes 2 s.pwr.now.mainI.toNat), (.auxV, leBytes 2 s.pwr.now.auxV.toNat),
      (.auxI, leBytes 2 s.pwr.now.auxI.toNat), (.inlet, leBytes 2 (signedWord s.pwr.inlet)), (.hotCd, leBytes 2 (signedWord (hottest s.pwr.cd))),
      (.hotLd, leBytes 2 (signedWord (hottest s.pwr.ld))), (.hotMs, leBytes 2 (signedWord (2 * hottest (s.mem.stackSt.map fun x => x.2.celsius)))),
      (.stage, leBytes 2 g), (.trip, leBytes 2 i), (.identity, leBytes 64 s.label.identity.toNat)] →
      exec c s = .next { s with out := .sideband bytes :: s.out }) ∧
  (∀ (s : State) (o : BitVec 32), s.pwr.aux = true →
    (∃ bytes, bytes.length = 32 ∧ bytes.take 7 = ascii (partNumber s.label.variant) ∧
      bytes.drop 12 = leBytes 8 s.label.serial.toNat ++ leBytes 2 s.label.revision.toNat ++ leBytes 6 s.label.mac.toNat ++ [0#8, 0#8, 0#8, 0#8] ∧
      exec .label s = .next { s with out := .sideband bytes :: s.out }) ∧
    ∃ bytes, bytes.length ≤ 255 ∧ bytes = ((s.report 0#512 true).drop o.toNat).take 255 ∧
      exec (.report o) s = .next { s with out := .sideband bytes :: s.out }) ∧
  (∀ (s : State) (o : BitVec 32) (x : SmbProto) (k : BitVec 8), s.pwr.aux = false →
    ∀ c ∈ [Instr.status, .power, .energy, .mainV, .mainI, .auxV, .auxI, .inlet, .hotCd, .hotMs, .hotLd, .stage, .trip, .identity, .label, .report o,
      .smbAlertResponse, .smbUnsupportedProtocol x k], exec c s = .next s) ∧
  (∀ (s : State) (x : SmbProto) (k : BitVec 8), s.pwr.aux = true →
    (s.alertLow = true → exec .smbAlertResponse s = .next { s with out := .sideband [BitVec.ofNat 8 s.smbAddress] :: s.out }) ∧
    (s.alertLow = false → exec .smbAlertResponse s = .next s) ∧
    (x ≠ .readReserved ∨ smbListed k = false → exec (.smbUnsupportedProtocol x k) s = .next { s with out := .smbNack :: s.out })) ∧
  (∀ s : State, (s.boot.standing = .serving → exec .detachRequest s = exec .detach s) ∧
    (s.boot.standing = .starting → ∃ t, exec .detachRequest s = .next t ∧ t.twin.detachReq = true ∧ t.boot = s.boot ∧ t.parts = s.parts) ∧
    (s.boot.standing ≠ .serving → s.boot.standing ≠ .starting → exec .detachRequest s = .next s))

/-! ## The whole machine -/

/-- R17, R18, R20: no command is refused. Each answers a next state where the unit that it names exists, and one that names a partition,
port, link die, subchannel or output that the variant does not have is that fault. In the second part: R67, R254, R311: a command word that no stream
can hold, and an IDLE word, change nothing. -/
def Obligations.CommandsNameWhatExists : Prop :=
  (
    (∀ (c : Instr) (s : State), (s.unitExists c = true → ∃ t, exec c s = .next t) ∧ (s.unitExists c = false → exec c s = .fault .noSuchUnit)) ∧
    (∀ (s : State) (p : BitVec 4), s.label.variant.parts ≤ p.toNat → exec (.heartbeat p) s = .fault .noSuchUnit) ∧
    (∀ (s : State) (p : BitVec 5), s.label.variant.ports ≤ p.toNat → exec (.idle p) s = .fault .noSuchUnit) ∧
    (∀ (s : State) (g : BitVec 10), 48 * s.label.variant.stacks ≤ g.toNat → exec (.refresh g) s = .fault .noSuchUnit) ∧
    (∀ (s : State) (d : BitVec 3), s.label.variant.linkDies ≤ d.toNat → exec (.waitStoreRelease d) s = .fault .noSuchUnit)) ∧
  (
    (∀ (s : State) (w : BitVec 512), exec (.invalidOpcode w) s = .next s) ∧
    (∀ (s : State) (p : BitVec 5), p.toNat < s.label.variant.ports → exec (.idle p) s = .next s))

/-- No command changes what is fixed at manufacture, nor the queue of commands that wait (notes/assumptions/3.md). -/
def Obligations.CommandsKeepLabelAndQueue : Prop :=
  ∀ (c : Instr) (s t : State), exec c s = .next t → sameFixed s t

/-- Every step keeps the canonical form of the stacks' and scratchpads' bytes, and with it the invariant that equal memories are equal data; a pass
register stays empty or holds a whole window of 1,024 values (R151). -/
def Obligations.StepsKeepMemoriesCanonical : Prop :=
  ∀ s t : State, s.canonical → step s = .next t → t.canonical

/-- R385, R416, R496, R507, R512, R557: what reset leaves. A module as manufactured has the auxiliary domain's start before it, no plate in effect,
both slots erased, setup COUNTER 0 with a zero setup, no tenant root, energy 0, stages 0, and STATUS code 0; no command has been executed and
nothing has left it. In the second part: The state after reset is canonical, and its queue is empty. -/
def Obligations.ResetLeavesTheManufacturedModule : Prop :=
  (
    State.reset.boot.standing = .auxOnly ∧ State.reset.boot.plate = none ∧ State.reset.boot.slot0 = none ∧ State.reset.boot.slot1 = none ∧
    State.reset.sec.counter = 0#64 ∧ State.reset.sec.setup = Setup.zero ∧ State.reset.sec.clients = [] ∧ State.reset.sec.root = none ∧
    State.reset.pwr.energy = 0#64 ∧ State.reset.pwr.pstage = 0 ∧ State.reset.pwr.tstage = 0 ∧ State.reset.pwr.good = false ∧ State.reset.statusCode = 0 ∧
    State.reset.out = [] ∧ State.reset.sess.list = [] ∧ ∀ p < 16, (State.reset.part p).reset = none ∧ (State.reset.part p).sems = []) ∧
  (
   State.reset.canonical ∧ State.reset.pending = [])
end

