-- ==== Sys2Proof/Laws/State.lean ====
section
/-! SUPPORT. Laws/State.lean: one lemma per field and update of State: what an update leaves alone, and what its own field becomes. -/
namespace Sys2Proof.Machine

variable (s : State)

/-! ## emit -/

@[simp] theorem State.emit_label (o : Out) : (s.emit o).label = s.label := rfl
@[simp] theorem State.emit_time (o : Out) : (s.emit o).time = s.time := rfl
@[simp] theorem State.emit_su (o : Out) : (s.emit o).su = s.su := rfl
@[simp] theorem State.emit_parts (o : Out) : (s.emit o).parts = s.parts := rfl
@[simp] theorem State.emit_mem (o : Out) : (s.emit o).mem = s.mem := rfl
@[simp] theorem State.emit_fab (o : Out) : (s.emit o).fab = s.fab := rfl
@[simp] theorem State.emit_sess (o : Out) : (s.emit o).sess = s.sess := rfl
@[simp] theorem State.emit_ae (o : Out) : (s.emit o).ae = s.ae := rfl
@[simp] theorem State.emit_trans (o : Out) : (s.emit o).trans = s.trans := rfl
@[simp] theorem State.emit_boot (o : Out) : (s.emit o).boot = s.boot := rfl
@[simp] theorem State.emit_twin (o : Out) : (s.emit o).twin = s.twin := rfl
@[simp] theorem State.emit_job (o : Out) : (s.emit o).job = s.job := rfl
@[simp] theorem State.emit_pwr (o : Out) : (s.emit o).pwr = s.pwr := rfl
@[simp] theorem State.emit_sec (o : Out) : (s.emit o).sec = s.sec := rfl
@[simp] theorem State.emit_obs (o : Out) : (s.emit o).obs = s.obs := rfl
@[simp] theorem State.emit_free (o : Out) : (s.emit o).free = s.free := rfl
@[simp] theorem State.emit_pending (o : Out) : (s.emit o).pending = s.pending := rfl
@[simp] theorem State.emit_out (o : Out) : (s.emit o).out = o :: s.out := rfl

/-! ## send -/

@[simp] theorem State.send_label (d : BitVec 10) (m : Mgmt) : (s.send d m).label = s.label := by unfold State.send; split <;> rfl
@[simp] theorem State.send_time (d : BitVec 10) (m : Mgmt) : (s.send d m).time = s.time := by unfold State.send; split <;> rfl
@[simp] theorem State.send_su (d : BitVec 10) (m : Mgmt) : (s.send d m).su = s.su := by unfold State.send; split <;> rfl
@[simp] theorem State.send_parts (d : BitVec 10) (m : Mgmt) : (s.send d m).parts = s.parts := by unfold State.send; split <;> rfl
@[simp] theorem State.send_mem (d : BitVec 10) (m : Mgmt) : (s.send d m).mem = s.mem := by unfold State.send; split <;> rfl
@[simp] theorem State.send_fab (d : BitVec 10) (m : Mgmt) : (s.send d m).fab = s.fab := by unfold State.send; split <;> rfl
@[simp] theorem State.send_sess (d : BitVec 10) (m : Mgmt) : (s.send d m).sess = s.sess := by unfold State.send; split <;> rfl
@[simp] theorem State.send_ae (d : BitVec 10) (m : Mgmt) : (s.send d m).ae = s.ae := by unfold State.send; split <;> rfl
@[simp] theorem State.send_trans (d : BitVec 10) (m : Mgmt) : (s.send d m).trans = s.trans := by unfold State.send; split <;> rfl
@[simp] theorem State.send_boot (d : BitVec 10) (m : Mgmt) : (s.send d m).boot = s.boot := by unfold State.send; split <;> rfl
@[simp] theorem State.send_twin (d : BitVec 10) (m : Mgmt) : (s.send d m).twin = s.twin := by unfold State.send; split <;> rfl
@[simp] theorem State.send_job (d : BitVec 10) (m : Mgmt) : (s.send d m).job = s.job := by unfold State.send; split <;> rfl
@[simp] theorem State.send_pwr (d : BitVec 10) (m : Mgmt) : (s.send d m).pwr = s.pwr := by unfold State.send; split <;> rfl
@[simp] theorem State.send_sec (d : BitVec 10) (m : Mgmt) : (s.send d m).sec = s.sec := by unfold State.send; split <;> rfl
@[simp] theorem State.send_obs (d : BitVec 10) (m : Mgmt) : (s.send d m).obs = s.obs := by unfold State.send; split <;> rfl
@[simp] theorem State.send_free (d : BitVec 10) (m : Mgmt) : (s.send d m).free = s.free := by unfold State.send; split <;> rfl
@[simp] theorem State.send_pending (d : BitVec 10) (m : Mgmt) : (s.send d m).pending = s.pending := by unfold State.send; split <;> rfl

/-! ## setPart -/

@[simp] theorem State.setPart_label (p : Nat) (x : Part) : (s.setPart p x).label = s.label := rfl
@[simp] theorem State.setPart_time (p : Nat) (x : Part) : (s.setPart p x).time = s.time := rfl
@[simp] theorem State.setPart_su (p : Nat) (x : Part) : (s.setPart p x).su = s.su := rfl
@[simp] theorem State.setPart_mem (p : Nat) (x : Part) : (s.setPart p x).mem = s.mem := rfl
@[simp] theorem State.setPart_fab (p : Nat) (x : Part) : (s.setPart p x).fab = s.fab := rfl
@[simp] theorem State.setPart_sess (p : Nat) (x : Part) : (s.setPart p x).sess = s.sess := rfl
@[simp] theorem State.setPart_ae (p : Nat) (x : Part) : (s.setPart p x).ae = s.ae := rfl
@[simp] theorem State.setPart_trans (p : Nat) (x : Part) : (s.setPart p x).trans = s.trans := rfl
@[simp] theorem State.setPart_boot (p : Nat) (x : Part) : (s.setPart p x).boot = s.boot := rfl
@[simp] theorem State.setPart_twin (p : Nat) (x : Part) : (s.setPart p x).twin = s.twin := rfl
@[simp] theorem State.setPart_job (p : Nat) (x : Part) : (s.setPart p x).job = s.job := rfl
@[simp] theorem State.setPart_pwr (p : Nat) (x : Part) : (s.setPart p x).pwr = s.pwr := rfl
@[simp] theorem State.setPart_sec (p : Nat) (x : Part) : (s.setPart p x).sec = s.sec := rfl
@[simp] theorem State.setPart_obs (p : Nat) (x : Part) : (s.setPart p x).obs = s.obs := rfl
@[simp] theorem State.setPart_out (p : Nat) (x : Part) : (s.setPart p x).out = s.out := rfl
@[simp] theorem State.setPart_free (p : Nat) (x : Part) : (s.setPart p x).free = s.free := rfl
@[simp] theorem State.setPart_pending (p : Nat) (x : Part) : (s.setPart p x).pending = s.pending := rfl
@[simp] theorem State.setPart_parts (p : Nat) (x : Part) : (s.setPart p x).parts = s.parts.setIfInBounds p x := rfl

/-! ## modPart -/

@[simp] theorem State.modPart_label (p : Nat) (f : Part → Part) : (s.modPart p f).label = s.label := rfl
@[simp] theorem State.modPart_time (p : Nat) (f : Part → Part) : (s.modPart p f).time = s.time := rfl
@[simp] theorem State.modPart_su (p : Nat) (f : Part → Part) : (s.modPart p f).su = s.su := rfl
@[simp] theorem State.modPart_mem (p : Nat) (f : Part → Part) : (s.modPart p f).mem = s.mem := rfl
@[simp] theorem State.modPart_fab (p : Nat) (f : Part → Part) : (s.modPart p f).fab = s.fab := rfl
@[simp] theorem State.modPart_sess (p : Nat) (f : Part → Part) : (s.modPart p f).sess = s.sess := rfl
@[simp] theorem State.modPart_ae (p : Nat) (f : Part → Part) : (s.modPart p f).ae = s.ae := rfl
@[simp] theorem State.modPart_trans (p : Nat) (f : Part → Part) : (s.modPart p f).trans = s.trans := rfl
@[simp] theorem State.modPart_boot (p : Nat) (f : Part → Part) : (s.modPart p f).boot = s.boot := rfl
@[simp] theorem State.modPart_twin (p : Nat) (f : Part → Part) : (s.modPart p f).twin = s.twin := rfl
@[simp] theorem State.modPart_job (p : Nat) (f : Part → Part) : (s.modPart p f).job = s.job := rfl
@[simp] theorem State.modPart_pwr (p : Nat) (f : Part → Part) : (s.modPart p f).pwr = s.pwr := rfl
@[simp] theorem State.modPart_sec (p : Nat) (f : Part → Part) : (s.modPart p f).sec = s.sec := rfl
@[simp] theorem State.modPart_obs (p : Nat) (f : Part → Part) : (s.modPart p f).obs = s.obs := rfl
@[simp] theorem State.modPart_out (p : Nat) (f : Part → Part) : (s.modPart p f).out = s.out := rfl
@[simp] theorem State.modPart_free (p : Nat) (f : Part → Part) : (s.modPart p f).free = s.free := rfl
@[simp] theorem State.modPart_pending (p : Nat) (f : Part → Part) : (s.modPart p f).pending = s.pending := rfl
@[simp] theorem State.modPart_parts (p : Nat) (f : Part → Part) : (s.modPart p f).parts = s.parts.setIfInBounds p (f (s.part p)) := rfl

/-! ## mapParts -/

@[simp] theorem State.mapParts_label (f : Part → Part) : (s.mapParts f).label = s.label := rfl
@[simp] theorem State.mapParts_time (f : Part → Part) : (s.mapParts f).time = s.time := rfl
@[simp] theorem State.mapParts_su (f : Part → Part) : (s.mapParts f).su = s.su := rfl
@[simp] theorem State.mapParts_mem (f : Part → Part) : (s.mapParts f).mem = s.mem := rfl
@[simp] theorem State.mapParts_fab (f : Part → Part) : (s.mapParts f).fab = s.fab := rfl
@[simp] theorem State.mapParts_sess (f : Part → Part) : (s.mapParts f).sess = s.sess := rfl
@[simp] theorem State.mapParts_ae (f : Part → Part) : (s.mapParts f).ae = s.ae := rfl
@[simp] theorem State.mapParts_trans (f : Part → Part) : (s.mapParts f).trans = s.trans := rfl
@[simp] theorem State.mapParts_boot (f : Part → Part) : (s.mapParts f).boot = s.boot := rfl
@[simp] theorem State.mapParts_twin (f : Part → Part) : (s.mapParts f).twin = s.twin := rfl
@[simp] theorem State.mapParts_job (f : Part → Part) : (s.mapParts f).job = s.job := rfl
@[simp] theorem State.mapParts_pwr (f : Part → Part) : (s.mapParts f).pwr = s.pwr := rfl
@[simp] theorem State.mapParts_sec (f : Part → Part) : (s.mapParts f).sec = s.sec := rfl
@[simp] theorem State.mapParts_obs (f : Part → Part) : (s.mapParts f).obs = s.obs := rfl
@[simp] theorem State.mapParts_out (f : Part → Part) : (s.mapParts f).out = s.out := rfl
@[simp] theorem State.mapParts_free (f : Part → Part) : (s.mapParts f).free = s.free := rfl
@[simp] theorem State.mapParts_pending (f : Part → Part) : (s.mapParts f).pending = s.pending := rfl
@[simp] theorem State.mapParts_parts (f : Part → Part) : (s.mapParts f).parts = s.parts.map f := rfl

/-! ## modMapOut -/

@[simp] theorem State.modMapOut_label (p n : Nat) (f : MapOut → MapOut) : (s.modMapOut p n f).label = s.label := rfl
@[simp] theorem State.modMapOut_time (p n : Nat) (f : MapOut → MapOut) : (s.modMapOut p n f).time = s.time := rfl
@[simp] theorem State.modMapOut_su (p n : Nat) (f : MapOut → MapOut) : (s.modMapOut p n f).su = s.su := rfl
@[simp] theorem State.modMapOut_mem (p n : Nat) (f : MapOut → MapOut) : (s.modMapOut p n f).mem = s.mem := rfl
@[simp] theorem State.modMapOut_fab (p n : Nat) (f : MapOut → MapOut) : (s.modMapOut p n f).fab = s.fab := rfl
@[simp] theorem State.modMapOut_sess (p n : Nat) (f : MapOut → MapOut) : (s.modMapOut p n f).sess = s.sess := rfl
@[simp] theorem State.modMapOut_ae (p n : Nat) (f : MapOut → MapOut) : (s.modMapOut p n f).ae = s.ae := rfl
@[simp] theorem State.modMapOut_trans (p n : Nat) (f : MapOut → MapOut) : (s.modMapOut p n f).trans = s.trans := rfl
@[simp] theorem State.modMapOut_boot (p n : Nat) (f : MapOut → MapOut) : (s.modMapOut p n f).boot = s.boot := rfl
@[simp] theorem State.modMapOut_twin (p n : Nat) (f : MapOut → MapOut) : (s.modMapOut p n f).twin = s.twin := rfl
@[simp] theorem State.modMapOut_job (p n : Nat) (f : MapOut → MapOut) : (s.modMapOut p n f).job = s.job := rfl
@[simp] theorem State.modMapOut_pwr (p n : Nat) (f : MapOut → MapOut) : (s.modMapOut p n f).pwr = s.pwr := rfl
@[simp] theorem State.modMapOut_sec (p n : Nat) (f : MapOut → MapOut) : (s.modMapOut p n f).sec = s.sec := rfl
@[simp] theorem State.modMapOut_obs (p n : Nat) (f : MapOut → MapOut) : (s.modMapOut p n f).obs = s.obs := rfl
@[simp] theorem State.modMapOut_out (p n : Nat) (f : MapOut → MapOut) : (s.modMapOut p n f).out = s.out := rfl
@[simp] theorem State.modMapOut_free (p n : Nat) (f : MapOut → MapOut) : (s.modMapOut p n f).free = s.free := rfl
@[simp] theorem State.modMapOut_pending (p n : Nat) (f : MapOut → MapOut) : (s.modMapOut p n f).pending = s.pending := rfl

/-! ## level -/

@[simp] theorem State.level_label (k : CtrKey) (v : Nat) : (s.level k v).label = s.label := rfl
@[simp] theorem State.level_time (k : CtrKey) (v : Nat) : (s.level k v).time = s.time := rfl
@[simp] theorem State.level_su (k : CtrKey) (v : Nat) : (s.level k v).su = s.su := rfl
@[simp] theorem State.level_parts (k : CtrKey) (v : Nat) : (s.level k v).parts = s.parts := rfl
@[simp] theorem State.level_mem (k : CtrKey) (v : Nat) : (s.level k v).mem = s.mem := rfl
@[simp] theorem State.level_fab (k : CtrKey) (v : Nat) : (s.level k v).fab = s.fab := rfl
@[simp] theorem State.level_sess (k : CtrKey) (v : Nat) : (s.level k v).sess = s.sess := rfl
@[simp] theorem State.level_ae (k : CtrKey) (v : Nat) : (s.level k v).ae = s.ae := rfl
@[simp] theorem State.level_trans (k : CtrKey) (v : Nat) : (s.level k v).trans = s.trans := rfl
@[simp] theorem State.level_boot (k : CtrKey) (v : Nat) : (s.level k v).boot = s.boot := rfl
@[simp] theorem State.level_twin (k : CtrKey) (v : Nat) : (s.level k v).twin = s.twin := rfl
@[simp] theorem State.level_job (k : CtrKey) (v : Nat) : (s.level k v).job = s.job := rfl
@[simp] theorem State.level_pwr (k : CtrKey) (v : Nat) : (s.level k v).pwr = s.pwr := rfl
@[simp] theorem State.level_sec (k : CtrKey) (v : Nat) : (s.level k v).sec = s.sec := rfl
@[simp] theorem State.level_out (k : CtrKey) (v : Nat) : (s.level k v).out = s.out := rfl
@[simp] theorem State.level_free (k : CtrKey) (v : Nat) : (s.level k v).free = s.free := rfl
@[simp] theorem State.level_pending (k : CtrKey) (v : Nat) : (s.level k v).pending = s.pending := rfl

/-! ## count -/

@[simp] theorem State.count_label (k : CtrKey) (n : Nat) : (s.count k n).label = s.label := by unfold State.count; split <;> rfl
@[simp] theorem State.count_time (k : CtrKey) (n : Nat) : (s.count k n).time = s.time := by unfold State.count; split <;> rfl
@[simp] theorem State.count_su (k : CtrKey) (n : Nat) : (s.count k n).su = s.su := by unfold State.count; split <;> rfl
@[simp] theorem State.count_parts (k : CtrKey) (n : Nat) : (s.count k n).parts = s.parts := by unfold State.count; split <;> rfl
@[simp] theorem State.count_mem (k : CtrKey) (n : Nat) : (s.count k n).mem = s.mem := by unfold State.count; split <;> rfl
@[simp] theorem State.count_fab (k : CtrKey) (n : Nat) : (s.count k n).fab = s.fab := by unfold State.count; split <;> rfl
@[simp] theorem State.count_sess (k : CtrKey) (n : Nat) : (s.count k n).sess = s.sess := by unfold State.count; split <;> rfl
@[simp] theorem State.count_ae (k : CtrKey) (n : Nat) : (s.count k n).ae = s.ae := by unfold State.count; split <;> rfl
@[simp] theorem State.count_trans (k : CtrKey) (n : Nat) : (s.count k n).trans = s.trans := by unfold State.count; split <;> rfl
@[simp] theorem State.count_boot (k : CtrKey) (n : Nat) : (s.count k n).boot = s.boot := by unfold State.count; split <;> rfl
@[simp] theorem State.count_twin (k : CtrKey) (n : Nat) : (s.count k n).twin = s.twin := by unfold State.count; split <;> rfl
@[simp] theorem State.count_job (k : CtrKey) (n : Nat) : (s.count k n).job = s.job := by unfold State.count; split <;> rfl
@[simp] theorem State.count_pwr (k : CtrKey) (n : Nat) : (s.count k n).pwr = s.pwr := by unfold State.count; split <;> rfl
@[simp] theorem State.count_sec (k : CtrKey) (n : Nat) : (s.count k n).sec = s.sec := by unfold State.count; split <;> rfl
@[simp] theorem State.count_out (k : CtrKey) (n : Nat) : (s.count k n).out = s.out := by unfold State.count; split <;> rfl
@[simp] theorem State.count_free (k : CtrKey) (n : Nat) : (s.count k n).free = s.free := by unfold State.count; split <;> rfl
@[simp] theorem State.count_pending (k : CtrKey) (n : Nat) : (s.count k n).pending = s.pending := by unfold State.count; split <;> rfl

/-! ## modPort -/

@[simp] theorem State.modPort_label (p : Nat) (f : PortState → PortState) : (s.modPort p f).label = s.label := rfl
@[simp] theorem State.modPort_time (p : Nat) (f : PortState → PortState) : (s.modPort p f).time = s.time := rfl
@[simp] theorem State.modPort_su (p : Nat) (f : PortState → PortState) : (s.modPort p f).su = s.su := rfl
@[simp] theorem State.modPort_parts (p : Nat) (f : PortState → PortState) : (s.modPort p f).parts = s.parts := rfl
@[simp] theorem State.modPort_mem (p : Nat) (f : PortState → PortState) : (s.modPort p f).mem = s.mem := rfl
@[simp] theorem State.modPort_sess (p : Nat) (f : PortState → PortState) : (s.modPort p f).sess = s.sess := rfl
@[simp] theorem State.modPort_ae (p : Nat) (f : PortState → PortState) : (s.modPort p f).ae = s.ae := rfl
@[simp] theorem State.modPort_trans (p : Nat) (f : PortState → PortState) : (s.modPort p f).trans = s.trans := rfl
@[simp] theorem State.modPort_boot (p : Nat) (f : PortState → PortState) : (s.modPort p f).boot = s.boot := rfl
@[simp] theorem State.modPort_twin (p : Nat) (f : PortState → PortState) : (s.modPort p f).twin = s.twin := rfl
@[simp] theorem State.modPort_job (p : Nat) (f : PortState → PortState) : (s.modPort p f).job = s.job := rfl
@[simp] theorem State.modPort_pwr (p : Nat) (f : PortState → PortState) : (s.modPort p f).pwr = s.pwr := rfl
@[simp] theorem State.modPort_sec (p : Nat) (f : PortState → PortState) : (s.modPort p f).sec = s.sec := rfl
@[simp] theorem State.modPort_obs (p : Nat) (f : PortState → PortState) : (s.modPort p f).obs = s.obs := rfl
@[simp] theorem State.modPort_out (p : Nat) (f : PortState → PortState) : (s.modPort p f).out = s.out := rfl
@[simp] theorem State.modPort_free (p : Nat) (f : PortState → PortState) : (s.modPort p f).free = s.free := rfl
@[simp] theorem State.modPort_pending (p : Nat) (f : PortState → PortState) : (s.modPort p f).pending = s.pending := rfl
@[simp] theorem State.modPort_fab (p : Nat) (f : PortState → PortState) : (s.modPort p f).fab = { s.fab with ports := s.fab.ports.setIfInBounds p (f (s.port p)) } := rfl

/-! ## modSub -/

@[simp] theorem State.modSub_label (g : Nat) (f : SubState → SubState) : (s.modSub g f).label = s.label := rfl
@[simp] theorem State.modSub_time (g : Nat) (f : SubState → SubState) : (s.modSub g f).time = s.time := rfl
@[simp] theorem State.modSub_su (g : Nat) (f : SubState → SubState) : (s.modSub g f).su = s.su := rfl
@[simp] theorem State.modSub_parts (g : Nat) (f : SubState → SubState) : (s.modSub g f).parts = s.parts := rfl
@[simp] theorem State.modSub_fab (g : Nat) (f : SubState → SubState) : (s.modSub g f).fab = s.fab := rfl
@[simp] theorem State.modSub_sess (g : Nat) (f : SubState → SubState) : (s.modSub g f).sess = s.sess := rfl
@[simp] theorem State.modSub_ae (g : Nat) (f : SubState → SubState) : (s.modSub g f).ae = s.ae := rfl
@[simp] theorem State.modSub_trans (g : Nat) (f : SubState → SubState) : (s.modSub g f).trans = s.trans := rfl
@[simp] theorem State.modSub_boot (g : Nat) (f : SubState → SubState) : (s.modSub g f).boot = s.boot := rfl
@[simp] theorem State.modSub_twin (g : Nat) (f : SubState → SubState) : (s.modSub g f).twin = s.twin := rfl
@[simp] theorem State.modSub_job (g : Nat) (f : SubState → SubState) : (s.modSub g f).job = s.job := rfl
@[simp] theorem State.modSub_pwr (g : Nat) (f : SubState → SubState) : (s.modSub g f).pwr = s.pwr := rfl
@[simp] theorem State.modSub_sec (g : Nat) (f : SubState → SubState) : (s.modSub g f).sec = s.sec := rfl
@[simp] theorem State.modSub_obs (g : Nat) (f : SubState → SubState) : (s.modSub g f).obs = s.obs := rfl
@[simp] theorem State.modSub_out (g : Nat) (f : SubState → SubState) : (s.modSub g f).out = s.out := rfl
@[simp] theorem State.modSub_free (g : Nat) (f : SubState → SubState) : (s.modSub g f).free = s.free := rfl
@[simp] theorem State.modSub_pending (g : Nat) (f : SubState → SubState) : (s.modSub g f).pending = s.pending := rfl

/-! ## modMig -/

@[simp] theorem State.modMig_label (b : Nat) (f : Migration → Migration) : (s.modMig b f).label = s.label := rfl
@[simp] theorem State.modMig_time (b : Nat) (f : Migration → Migration) : (s.modMig b f).time = s.time := rfl
@[simp] theorem State.modMig_su (b : Nat) (f : Migration → Migration) : (s.modMig b f).su = s.su := rfl
@[simp] theorem State.modMig_parts (b : Nat) (f : Migration → Migration) : (s.modMig b f).parts = s.parts := rfl
@[simp] theorem State.modMig_fab (b : Nat) (f : Migration → Migration) : (s.modMig b f).fab = s.fab := rfl
@[simp] theorem State.modMig_sess (b : Nat) (f : Migration → Migration) : (s.modMig b f).sess = s.sess := rfl
@[simp] theorem State.modMig_ae (b : Nat) (f : Migration → Migration) : (s.modMig b f).ae = s.ae := rfl
@[simp] theorem State.modMig_trans (b : Nat) (f : Migration → Migration) : (s.modMig b f).trans = s.trans := rfl
@[simp] theorem State.modMig_boot (b : Nat) (f : Migration → Migration) : (s.modMig b f).boot = s.boot := rfl
@[simp] theorem State.modMig_twin (b : Nat) (f : Migration → Migration) : (s.modMig b f).twin = s.twin := rfl
@[simp] theorem State.modMig_job (b : Nat) (f : Migration → Migration) : (s.modMig b f).job = s.job := rfl
@[simp] theorem State.modMig_pwr (b : Nat) (f : Migration → Migration) : (s.modMig b f).pwr = s.pwr := rfl
@[simp] theorem State.modMig_sec (b : Nat) (f : Migration → Migration) : (s.modMig b f).sec = s.sec := rfl
@[simp] theorem State.modMig_obs (b : Nat) (f : Migration → Migration) : (s.modMig b f).obs = s.obs := rfl
@[simp] theorem State.modMig_out (b : Nat) (f : Migration → Migration) : (s.modMig b f).out = s.out := rfl
@[simp] theorem State.modMig_free (b : Nat) (f : Migration → Migration) : (s.modMig b f).free = s.free := rfl
@[simp] theorem State.modMig_pending (b : Nat) (f : Migration → Migration) : (s.modMig b f).pending = s.pending := rfl

/-! ## setDirEntry -/

@[simp] theorem State.setDirEntry_label (b : Nat) (e : BitVec 32) : (s.setDirEntry b e).label = s.label := by unfold State.setDirEntry; split <;> rfl
@[simp] theorem State.setDirEntry_time (b : Nat) (e : BitVec 32) : (s.setDirEntry b e).time = s.time := by unfold State.setDirEntry; split <;> rfl
@[simp] theorem State.setDirEntry_su (b : Nat) (e : BitVec 32) : (s.setDirEntry b e).su = s.su := by unfold State.setDirEntry; split <;> rfl
@[simp] theorem State.setDirEntry_parts (b : Nat) (e : BitVec 32) : (s.setDirEntry b e).parts = s.parts := by unfold State.setDirEntry; split <;> rfl
@[simp] theorem State.setDirEntry_fab (b : Nat) (e : BitVec 32) : (s.setDirEntry b e).fab = s.fab := by unfold State.setDirEntry; split <;> rfl
@[simp] theorem State.setDirEntry_sess (b : Nat) (e : BitVec 32) : (s.setDirEntry b e).sess = s.sess := by unfold State.setDirEntry; split <;> rfl
@[simp] theorem State.setDirEntry_ae (b : Nat) (e : BitVec 32) : (s.setDirEntry b e).ae = s.ae := by unfold State.setDirEntry; split <;> rfl
@[simp] theorem State.setDirEntry_trans (b : Nat) (e : BitVec 32) : (s.setDirEntry b e).trans = s.trans := by unfold State.setDirEntry; split <;> rfl
@[simp] theorem State.setDirEntry_boot (b : Nat) (e : BitVec 32) : (s.setDirEntry b e).boot = s.boot := by unfold State.setDirEntry; split <;> rfl
@[simp] theorem State.setDirEntry_twin (b : Nat) (e : BitVec 32) : (s.setDirEntry b e).twin = s.twin := by unfold State.setDirEntry; split <;> rfl
@[simp] theorem State.setDirEntry_job (b : Nat) (e : BitVec 32) : (s.setDirEntry b e).job = s.job := by unfold State.setDirEntry; split <;> rfl
@[simp] theorem State.setDirEntry_pwr (b : Nat) (e : BitVec 32) : (s.setDirEntry b e).pwr = s.pwr := by unfold State.setDirEntry; split <;> rfl
@[simp] theorem State.setDirEntry_sec (b : Nat) (e : BitVec 32) : (s.setDirEntry b e).sec = s.sec := by unfold State.setDirEntry; split <;> rfl
@[simp] theorem State.setDirEntry_obs (b : Nat) (e : BitVec 32) : (s.setDirEntry b e).obs = s.obs := by unfold State.setDirEntry; split <;> rfl
@[simp] theorem State.setDirEntry_out (b : Nat) (e : BitVec 32) : (s.setDirEntry b e).out = s.out := by unfold State.setDirEntry; split <;> rfl
@[simp] theorem State.setDirEntry_free (b : Nat) (e : BitVec 32) : (s.setDirEntry b e).free = s.free := by unfold State.setDirEntry; split <;> rfl
@[simp] theorem State.setDirEntry_pending (b : Nat) (e : BitVec 32) : (s.setDirEntry b e).pending = s.pending := by unfold State.setDirEntry; split <;> rfl

/-! ## modInfo -/

@[simp] theorem State.modInfo_label (m : BitVec 10) (f : ModInfo → ModInfo) : (s.modInfo m f).label = s.label := rfl
@[simp] theorem State.modInfo_time (m : BitVec 10) (f : ModInfo → ModInfo) : (s.modInfo m f).time = s.time := rfl
@[simp] theorem State.modInfo_su (m : BitVec 10) (f : ModInfo → ModInfo) : (s.modInfo m f).su = s.su := rfl
@[simp] theorem State.modInfo_parts (m : BitVec 10) (f : ModInfo → ModInfo) : (s.modInfo m f).parts = s.parts := rfl
@[simp] theorem State.modInfo_mem (m : BitVec 10) (f : ModInfo → ModInfo) : (s.modInfo m f).mem = s.mem := rfl
@[simp] theorem State.modInfo_fab (m : BitVec 10) (f : ModInfo → ModInfo) : (s.modInfo m f).fab = s.fab := rfl
@[simp] theorem State.modInfo_sess (m : BitVec 10) (f : ModInfo → ModInfo) : (s.modInfo m f).sess = s.sess := rfl
@[simp] theorem State.modInfo_trans (m : BitVec 10) (f : ModInfo → ModInfo) : (s.modInfo m f).trans = s.trans := rfl
@[simp] theorem State.modInfo_boot (m : BitVec 10) (f : ModInfo → ModInfo) : (s.modInfo m f).boot = s.boot := rfl
@[simp] theorem State.modInfo_twin (m : BitVec 10) (f : ModInfo → ModInfo) : (s.modInfo m f).twin = s.twin := rfl
@[simp] theorem State.modInfo_job (m : BitVec 10) (f : ModInfo → ModInfo) : (s.modInfo m f).job = s.job := rfl
@[simp] theorem State.modInfo_pwr (m : BitVec 10) (f : ModInfo → ModInfo) : (s.modInfo m f).pwr = s.pwr := rfl
@[simp] theorem State.modInfo_sec (m : BitVec 10) (f : ModInfo → ModInfo) : (s.modInfo m f).sec = s.sec := rfl
@[simp] theorem State.modInfo_obs (m : BitVec 10) (f : ModInfo → ModInfo) : (s.modInfo m f).obs = s.obs := rfl
@[simp] theorem State.modInfo_out (m : BitVec 10) (f : ModInfo → ModInfo) : (s.modInfo m f).out = s.out := rfl
@[simp] theorem State.modInfo_free (m : BitVec 10) (f : ModInfo → ModInfo) : (s.modInfo m f).free = s.free := rfl
@[simp] theorem State.modInfo_pending (m : BitVec 10) (f : ModInfo → ModInfo) : (s.modInfo m f).pending = s.pending := rfl

/-! ## modTwin -/

@[simp] theorem State.modTwin_label (f : TwinState → TwinState) : (s.modTwin f).label = s.label := rfl
@[simp] theorem State.modTwin_time (f : TwinState → TwinState) : (s.modTwin f).time = s.time := rfl
@[simp] theorem State.modTwin_su (f : TwinState → TwinState) : (s.modTwin f).su = s.su := rfl
@[simp] theorem State.modTwin_parts (f : TwinState → TwinState) : (s.modTwin f).parts = s.parts := rfl
@[simp] theorem State.modTwin_mem (f : TwinState → TwinState) : (s.modTwin f).mem = s.mem := rfl
@[simp] theorem State.modTwin_fab (f : TwinState → TwinState) : (s.modTwin f).fab = s.fab := rfl
@[simp] theorem State.modTwin_sess (f : TwinState → TwinState) : (s.modTwin f).sess = s.sess := rfl
@[simp] theorem State.modTwin_ae (f : TwinState → TwinState) : (s.modTwin f).ae = s.ae := rfl
@[simp] theorem State.modTwin_trans (f : TwinState → TwinState) : (s.modTwin f).trans = s.trans := rfl
@[simp] theorem State.modTwin_boot (f : TwinState → TwinState) : (s.modTwin f).boot = s.boot := rfl
@[simp] theorem State.modTwin_job (f : TwinState → TwinState) : (s.modTwin f).job = s.job := rfl
@[simp] theorem State.modTwin_pwr (f : TwinState → TwinState) : (s.modTwin f).pwr = s.pwr := rfl
@[simp] theorem State.modTwin_sec (f : TwinState → TwinState) : (s.modTwin f).sec = s.sec := rfl
@[simp] theorem State.modTwin_obs (f : TwinState → TwinState) : (s.modTwin f).obs = s.obs := rfl
@[simp] theorem State.modTwin_out (f : TwinState → TwinState) : (s.modTwin f).out = s.out := rfl
@[simp] theorem State.modTwin_free (f : TwinState → TwinState) : (s.modTwin f).free = s.free := rfl
@[simp] theorem State.modTwin_pending (f : TwinState → TwinState) : (s.modTwin f).pending = s.pending := rfl
@[simp] theorem State.modTwin_twin (f : TwinState → TwinState) : (s.modTwin f).twin = f s.twin := rfl

/-! ## modCapture -/

@[simp] theorem State.modCapture_label (l : Nat) (i : BitVec 16) (p : BitVec 48) (f : Capture → Capture) : (s.modCapture l i p f).label = s.label := rfl
@[simp] theorem State.modCapture_time (l : Nat) (i : BitVec 16) (p : BitVec 48) (f : Capture → Capture) : (s.modCapture l i p f).time = s.time := rfl
@[simp] theorem State.modCapture_su (l : Nat) (i : BitVec 16) (p : BitVec 48) (f : Capture → Capture) : (s.modCapture l i p f).su = s.su := rfl
@[simp] theorem State.modCapture_parts (l : Nat) (i : BitVec 16) (p : BitVec 48) (f : Capture → Capture) : (s.modCapture l i p f).parts = s.parts := rfl
@[simp] theorem State.modCapture_mem (l : Nat) (i : BitVec 16) (p : BitVec 48) (f : Capture → Capture) : (s.modCapture l i p f).mem = s.mem := rfl
@[simp] theorem State.modCapture_fab (l : Nat) (i : BitVec 16) (p : BitVec 48) (f : Capture → Capture) : (s.modCapture l i p f).fab = s.fab := rfl
@[simp] theorem State.modCapture_sess (l : Nat) (i : BitVec 16) (p : BitVec 48) (f : Capture → Capture) : (s.modCapture l i p f).sess = s.sess := rfl
@[simp] theorem State.modCapture_ae (l : Nat) (i : BitVec 16) (p : BitVec 48) (f : Capture → Capture) : (s.modCapture l i p f).ae = s.ae := rfl
@[simp] theorem State.modCapture_trans (l : Nat) (i : BitVec 16) (p : BitVec 48) (f : Capture → Capture) : (s.modCapture l i p f).trans = s.trans := rfl
@[simp] theorem State.modCapture_boot (l : Nat) (i : BitVec 16) (p : BitVec 48) (f : Capture → Capture) : (s.modCapture l i p f).boot = s.boot := rfl
@[simp] theorem State.modCapture_job (l : Nat) (i : BitVec 16) (p : BitVec 48) (f : Capture → Capture) : (s.modCapture l i p f).job = s.job := rfl
@[simp] theorem State.modCapture_pwr (l : Nat) (i : BitVec 16) (p : BitVec 48) (f : Capture → Capture) : (s.modCapture l i p f).pwr = s.pwr := rfl
@[simp] theorem State.modCapture_sec (l : Nat) (i : BitVec 16) (p : BitVec 48) (f : Capture → Capture) : (s.modCapture l i p f).sec = s.sec := rfl
@[simp] theorem State.modCapture_obs (l : Nat) (i : BitVec 16) (p : BitVec 48) (f : Capture → Capture) : (s.modCapture l i p f).obs = s.obs := rfl
@[simp] theorem State.modCapture_out (l : Nat) (i : BitVec 16) (p : BitVec 48) (f : Capture → Capture) : (s.modCapture l i p f).out = s.out := rfl
@[simp] theorem State.modCapture_free (l : Nat) (i : BitVec 16) (p : BitVec 48) (f : Capture → Capture) : (s.modCapture l i p f).free = s.free := rfl
@[simp] theorem State.modCapture_pending (l : Nat) (i : BitVec 16) (p : BitVec 48) (f : Capture → Capture) : (s.modCapture l i p f).pending = s.pending := rfl

/-! ## modTime -/

@[simp] theorem State.modTime_label (f : TimeState → TimeState) : (s.modTime f).label = s.label := rfl
@[simp] theorem State.modTime_su (f : TimeState → TimeState) : (s.modTime f).su = s.su := rfl
@[simp] theorem State.modTime_parts (f : TimeState → TimeState) : (s.modTime f).parts = s.parts := rfl
@[simp] theorem State.modTime_mem (f : TimeState → TimeState) : (s.modTime f).mem = s.mem := rfl
@[simp] theorem State.modTime_fab (f : TimeState → TimeState) : (s.modTime f).fab = s.fab := rfl
@[simp] theorem State.modTime_sess (f : TimeState → TimeState) : (s.modTime f).sess = s.sess := rfl
@[simp] theorem State.modTime_ae (f : TimeState → TimeState) : (s.modTime f).ae = s.ae := rfl
@[simp] theorem State.modTime_trans (f : TimeState → TimeState) : (s.modTime f).trans = s.trans := rfl
@[simp] theorem State.modTime_boot (f : TimeState → TimeState) : (s.modTime f).boot = s.boot := rfl
@[simp] theorem State.modTime_twin (f : TimeState → TimeState) : (s.modTime f).twin = s.twin := rfl
@[simp] theorem State.modTime_job (f : TimeState → TimeState) : (s.modTime f).job = s.job := rfl
@[simp] theorem State.modTime_pwr (f : TimeState → TimeState) : (s.modTime f).pwr = s.pwr := rfl
@[simp] theorem State.modTime_sec (f : TimeState → TimeState) : (s.modTime f).sec = s.sec := rfl
@[simp] theorem State.modTime_obs (f : TimeState → TimeState) : (s.modTime f).obs = s.obs := rfl
@[simp] theorem State.modTime_out (f : TimeState → TimeState) : (s.modTime f).out = s.out := rfl
@[simp] theorem State.modTime_free (f : TimeState → TimeState) : (s.modTime f).free = s.free := rfl
@[simp] theorem State.modTime_pending (f : TimeState → TimeState) : (s.modTime f).pending = s.pending := rfl
@[simp] theorem State.modTime_time (f : TimeState → TimeState) : (s.modTime f).time = f s.time := rfl

/-! ## reach -/

@[simp] theorem State.reach_label (t : Nat) : (s.reach t).label = s.label := by unfold State.reach; split <;> rfl
@[simp] theorem State.reach_su (t : Nat) : (s.reach t).su = s.su := by unfold State.reach; split <;> rfl
@[simp] theorem State.reach_parts (t : Nat) : (s.reach t).parts = s.parts := by unfold State.reach; split <;> rfl
@[simp] theorem State.reach_mem (t : Nat) : (s.reach t).mem = s.mem := by unfold State.reach; split <;> rfl
@[simp] theorem State.reach_fab (t : Nat) : (s.reach t).fab = s.fab := by unfold State.reach; split <;> rfl
@[simp] theorem State.reach_sess (t : Nat) : (s.reach t).sess = s.sess := by unfold State.reach; split <;> rfl
@[simp] theorem State.reach_ae (t : Nat) : (s.reach t).ae = s.ae := by unfold State.reach; split <;> rfl
@[simp] theorem State.reach_trans (t : Nat) : (s.reach t).trans = s.trans := by unfold State.reach; split <;> rfl
@[simp] theorem State.reach_boot (t : Nat) : (s.reach t).boot = s.boot := by unfold State.reach; split <;> rfl
@[simp] theorem State.reach_twin (t : Nat) : (s.reach t).twin = s.twin := by unfold State.reach; split <;> rfl
@[simp] theorem State.reach_job (t : Nat) : (s.reach t).job = s.job := by unfold State.reach; split <;> rfl
@[simp] theorem State.reach_pwr (t : Nat) : (s.reach t).pwr = s.pwr := by unfold State.reach; split <;> rfl
@[simp] theorem State.reach_sec (t : Nat) : (s.reach t).sec = s.sec := by unfold State.reach; split <;> rfl
@[simp] theorem State.reach_obs (t : Nat) : (s.reach t).obs = s.obs := by unfold State.reach; split <;> rfl
@[simp] theorem State.reach_out (t : Nat) : (s.reach t).out = s.out := by unfold State.reach; split <;> rfl
@[simp] theorem State.reach_free (t : Nat) : (s.reach t).free = s.free := by unfold State.reach; split <;> rfl
@[simp] theorem State.reach_pending (t : Nat) : (s.reach t).pending = s.pending := by unfold State.reach; split <;> rfl

/-! ## reachMono -/

@[simp] theorem State.reachMono_label (t : Nat) : (s.reachMono t).label = s.label := by unfold State.reachMono; dsimp only; split <;> rfl
@[simp] theorem State.reachMono_su (t : Nat) : (s.reachMono t).su = s.su := by unfold State.reachMono; dsimp only; split <;> rfl
@[simp] theorem State.reachMono_parts (t : Nat) : (s.reachMono t).parts = s.parts := by unfold State.reachMono; dsimp only; split <;> rfl
@[simp] theorem State.reachMono_mem (t : Nat) : (s.reachMono t).mem = s.mem := by unfold State.reachMono; dsimp only; split <;> rfl
@[simp] theorem State.reachMono_fab (t : Nat) : (s.reachMono t).fab = s.fab := by unfold State.reachMono; dsimp only; split <;> rfl
@[simp] theorem State.reachMono_sess (t : Nat) : (s.reachMono t).sess = s.sess := by unfold State.reachMono; dsimp only; split <;> rfl
@[simp] theorem State.reachMono_ae (t : Nat) : (s.reachMono t).ae = s.ae := by unfold State.reachMono; dsimp only; split <;> rfl
@[simp] theorem State.reachMono_trans (t : Nat) : (s.reachMono t).trans = s.trans := by unfold State.reachMono; dsimp only; split <;> rfl
@[simp] theorem State.reachMono_boot (t : Nat) : (s.reachMono t).boot = s.boot := by unfold State.reachMono; dsimp only; split <;> rfl
@[simp] theorem State.reachMono_twin (t : Nat) : (s.reachMono t).twin = s.twin := by unfold State.reachMono; dsimp only; split <;> rfl
@[simp] theorem State.reachMono_job (t : Nat) : (s.reachMono t).job = s.job := by unfold State.reachMono; dsimp only; split <;> rfl
@[simp] theorem State.reachMono_pwr (t : Nat) : (s.reachMono t).pwr = s.pwr := by unfold State.reachMono; dsimp only; split <;> rfl
@[simp] theorem State.reachMono_sec (t : Nat) : (s.reachMono t).sec = s.sec := by unfold State.reachMono; dsimp only; split <;> rfl
@[simp] theorem State.reachMono_obs (t : Nat) : (s.reachMono t).obs = s.obs := by unfold State.reachMono; dsimp only; split <;> rfl
@[simp] theorem State.reachMono_out (t : Nat) : (s.reachMono t).out = s.out := by unfold State.reachMono; dsimp only; split <;> rfl
@[simp] theorem State.reachMono_free (t : Nat) : (s.reachMono t).free = s.free := by unfold State.reachMono; dsimp only; split <;> rfl
@[simp] theorem State.reachMono_pending (t : Nat) : (s.reachMono t).pending = s.pending := by unfold State.reachMono; dsimp only; split <;> rfl

/-! ## modEp -/

@[simp] theorem State.modEp_label (n : Nat) (f : Endpoint → Endpoint) : (s.modEp n f).label = s.label := rfl
@[simp] theorem State.modEp_time (n : Nat) (f : Endpoint → Endpoint) : (s.modEp n f).time = s.time := rfl
@[simp] theorem State.modEp_su (n : Nat) (f : Endpoint → Endpoint) : (s.modEp n f).su = s.su := rfl
@[simp] theorem State.modEp_parts (n : Nat) (f : Endpoint → Endpoint) : (s.modEp n f).parts = s.parts := rfl
@[simp] theorem State.modEp_mem (n : Nat) (f : Endpoint → Endpoint) : (s.modEp n f).mem = s.mem := rfl
@[simp] theorem State.modEp_fab (n : Nat) (f : Endpoint → Endpoint) : (s.modEp n f).fab = s.fab := rfl
@[simp] theorem State.modEp_sess (n : Nat) (f : Endpoint → Endpoint) : (s.modEp n f).sess = s.sess := rfl
@[simp] theorem State.modEp_ae (n : Nat) (f : Endpoint → Endpoint) : (s.modEp n f).ae = s.ae := rfl
@[simp] theorem State.modEp_boot (n : Nat) (f : Endpoint → Endpoint) : (s.modEp n f).boot = s.boot := rfl
@[simp] theorem State.modEp_twin (n : Nat) (f : Endpoint → Endpoint) : (s.modEp n f).twin = s.twin := rfl
@[simp] theorem State.modEp_job (n : Nat) (f : Endpoint → Endpoint) : (s.modEp n f).job = s.job := rfl
@[simp] theorem State.modEp_pwr (n : Nat) (f : Endpoint → Endpoint) : (s.modEp n f).pwr = s.pwr := rfl
@[simp] theorem State.modEp_sec (n : Nat) (f : Endpoint → Endpoint) : (s.modEp n f).sec = s.sec := rfl
@[simp] theorem State.modEp_obs (n : Nat) (f : Endpoint → Endpoint) : (s.modEp n f).obs = s.obs := rfl
@[simp] theorem State.modEp_out (n : Nat) (f : Endpoint → Endpoint) : (s.modEp n f).out = s.out := rfl
@[simp] theorem State.modEp_free (n : Nat) (f : Endpoint → Endpoint) : (s.modEp n f).free = s.free := rfl
@[simp] theorem State.modEp_pending (n : Nat) (f : Endpoint → Endpoint) : (s.modEp n f).pending = s.pending := rfl

/-! ## mapSessions -/

@[simp] theorem State.mapSessions_label (f : Session → Session) : (s.mapSessions f).label = s.label := rfl
@[simp] theorem State.mapSessions_time (f : Session → Session) : (s.mapSessions f).time = s.time := rfl
@[simp] theorem State.mapSessions_su (f : Session → Session) : (s.mapSessions f).su = s.su := rfl
@[simp] theorem State.mapSessions_parts (f : Session → Session) : (s.mapSessions f).parts = s.parts := rfl
@[simp] theorem State.mapSessions_mem (f : Session → Session) : (s.mapSessions f).mem = s.mem := rfl
@[simp] theorem State.mapSessions_fab (f : Session → Session) : (s.mapSessions f).fab = s.fab := rfl
@[simp] theorem State.mapSessions_ae (f : Session → Session) : (s.mapSessions f).ae = s.ae := rfl
@[simp] theorem State.mapSessions_trans (f : Session → Session) : (s.mapSessions f).trans = s.trans := rfl
@[simp] theorem State.mapSessions_boot (f : Session → Session) : (s.mapSessions f).boot = s.boot := rfl
@[simp] theorem State.mapSessions_twin (f : Session → Session) : (s.mapSessions f).twin = s.twin := rfl
@[simp] theorem State.mapSessions_job (f : Session → Session) : (s.mapSessions f).job = s.job := rfl
@[simp] theorem State.mapSessions_pwr (f : Session → Session) : (s.mapSessions f).pwr = s.pwr := rfl
@[simp] theorem State.mapSessions_sec (f : Session → Session) : (s.mapSessions f).sec = s.sec := rfl
@[simp] theorem State.mapSessions_obs (f : Session → Session) : (s.mapSessions f).obs = s.obs := rfl
@[simp] theorem State.mapSessions_out (f : Session → Session) : (s.mapSessions f).out = s.out := rfl
@[simp] theorem State.mapSessions_free (f : Session → Session) : (s.mapSessions f).free = s.free := rfl
@[simp] theorem State.mapSessions_pending (f : Session → Session) : (s.mapSessions f).pending = s.pending := rfl
@[simp] theorem State.mapSessions_sess (f : Session → Session) : (s.mapSessions f).sess = { s.sess with list := s.sess.list.map f } := rfl

/-! ## modSession -/

@[simp] theorem State.modSession_label (k : SessKey) (f : Session → Session) : (s.modSession k f).label = s.label := rfl
@[simp] theorem State.modSession_time (k : SessKey) (f : Session → Session) : (s.modSession k f).time = s.time := rfl
@[simp] theorem State.modSession_su (k : SessKey) (f : Session → Session) : (s.modSession k f).su = s.su := rfl
@[simp] theorem State.modSession_parts (k : SessKey) (f : Session → Session) : (s.modSession k f).parts = s.parts := rfl
@[simp] theorem State.modSession_mem (k : SessKey) (f : Session → Session) : (s.modSession k f).mem = s.mem := rfl
@[simp] theorem State.modSession_fab (k : SessKey) (f : Session → Session) : (s.modSession k f).fab = s.fab := rfl
@[simp] theorem State.modSession_ae (k : SessKey) (f : Session → Session) : (s.modSession k f).ae = s.ae := rfl
@[simp] theorem State.modSession_trans (k : SessKey) (f : Session → Session) : (s.modSession k f).trans = s.trans := rfl
@[simp] theorem State.modSession_boot (k : SessKey) (f : Session → Session) : (s.modSession k f).boot = s.boot := rfl
@[simp] theorem State.modSession_twin (k : SessKey) (f : Session → Session) : (s.modSession k f).twin = s.twin := rfl
@[simp] theorem State.modSession_job (k : SessKey) (f : Session → Session) : (s.modSession k f).job = s.job := rfl
@[simp] theorem State.modSession_pwr (k : SessKey) (f : Session → Session) : (s.modSession k f).pwr = s.pwr := rfl
@[simp] theorem State.modSession_sec (k : SessKey) (f : Session → Session) : (s.modSession k f).sec = s.sec := rfl
@[simp] theorem State.modSession_obs (k : SessKey) (f : Session → Session) : (s.modSession k f).obs = s.obs := rfl
@[simp] theorem State.modSession_out (k : SessKey) (f : Session → Session) : (s.modSession k f).out = s.out := rfl
@[simp] theorem State.modSession_free (k : SessKey) (f : Session → Session) : (s.modSession k f).free = s.free := rfl
@[simp] theorem State.modSession_pending (k : SessKey) (f : Session → Session) : (s.modSession k f).pending = s.pending := rfl

/-! ## modShadow -/

@[simp] theorem State.modShadow_label (h : BitVec 32) (f : Session → Session) : (s.modShadow h f).label = s.label := rfl
@[simp] theorem State.modShadow_time (h : BitVec 32) (f : Session → Session) : (s.modShadow h f).time = s.time := rfl
@[simp] theorem State.modShadow_su (h : BitVec 32) (f : Session → Session) : (s.modShadow h f).su = s.su := rfl
@[simp] theorem State.modShadow_parts (h : BitVec 32) (f : Session → Session) : (s.modShadow h f).parts = s.parts := rfl
@[simp] theorem State.modShadow_mem (h : BitVec 32) (f : Session → Session) : (s.modShadow h f).mem = s.mem := rfl
@[simp] theorem State.modShadow_fab (h : BitVec 32) (f : Session → Session) : (s.modShadow h f).fab = s.fab := rfl
@[simp] theorem State.modShadow_ae (h : BitVec 32) (f : Session → Session) : (s.modShadow h f).ae = s.ae := rfl
@[simp] theorem State.modShadow_trans (h : BitVec 32) (f : Session → Session) : (s.modShadow h f).trans = s.trans := rfl
@[simp] theorem State.modShadow_boot (h : BitVec 32) (f : Session → Session) : (s.modShadow h f).boot = s.boot := rfl
@[simp] theorem State.modShadow_twin (h : BitVec 32) (f : Session → Session) : (s.modShadow h f).twin = s.twin := rfl
@[simp] theorem State.modShadow_job (h : BitVec 32) (f : Session → Session) : (s.modShadow h f).job = s.job := rfl
@[simp] theorem State.modShadow_pwr (h : BitVec 32) (f : Session → Session) : (s.modShadow h f).pwr = s.pwr := rfl
@[simp] theorem State.modShadow_sec (h : BitVec 32) (f : Session → Session) : (s.modShadow h f).sec = s.sec := rfl
@[simp] theorem State.modShadow_obs (h : BitVec 32) (f : Session → Session) : (s.modShadow h f).obs = s.obs := rfl
@[simp] theorem State.modShadow_out (h : BitVec 32) (f : Session → Session) : (s.modShadow h f).out = s.out := rfl
@[simp] theorem State.modShadow_free (h : BitVec 32) (f : Session → Session) : (s.modShadow h f).free = s.free := rfl
@[simp] theorem State.modShadow_pending (h : BitVec 32) (f : Session → Session) : (s.modShadow h f).pending = s.pending := rfl

/-! ## beginExcl -/

@[simp] theorem State.beginExcl_label (c : Nat) (o : Option SessKey) : (s.beginExcl c o).label = s.label := by unfold State.beginExcl; split <;> rfl
@[simp] theorem State.beginExcl_time (c : Nat) (o : Option SessKey) : (s.beginExcl c o).time = s.time := by unfold State.beginExcl; split <;> rfl
@[simp] theorem State.beginExcl_su (c : Nat) (o : Option SessKey) : (s.beginExcl c o).su = s.su := by unfold State.beginExcl; split <;> rfl
@[simp] theorem State.beginExcl_parts (c : Nat) (o : Option SessKey) : (s.beginExcl c o).parts = s.parts := by unfold State.beginExcl; split <;> rfl
@[simp] theorem State.beginExcl_mem (c : Nat) (o : Option SessKey) : (s.beginExcl c o).mem = s.mem := by unfold State.beginExcl; split <;> rfl
@[simp] theorem State.beginExcl_fab (c : Nat) (o : Option SessKey) : (s.beginExcl c o).fab = s.fab := by unfold State.beginExcl; split <;> rfl
@[simp] theorem State.beginExcl_ae (c : Nat) (o : Option SessKey) : (s.beginExcl c o).ae = s.ae := by unfold State.beginExcl; split <;> rfl
@[simp] theorem State.beginExcl_trans (c : Nat) (o : Option SessKey) : (s.beginExcl c o).trans = s.trans := by unfold State.beginExcl; split <;> rfl
@[simp] theorem State.beginExcl_boot (c : Nat) (o : Option SessKey) : (s.beginExcl c o).boot = s.boot := by unfold State.beginExcl; split <;> rfl
@[simp] theorem State.beginExcl_twin (c : Nat) (o : Option SessKey) : (s.beginExcl c o).twin = s.twin := by unfold State.beginExcl; split <;> rfl
@[simp] theorem State.beginExcl_job (c : Nat) (o : Option SessKey) : (s.beginExcl c o).job = s.job := by unfold State.beginExcl; split <;> rfl
@[simp] theorem State.beginExcl_pwr (c : Nat) (o : Option SessKey) : (s.beginExcl c o).pwr = s.pwr := by unfold State.beginExcl; split <;> rfl
@[simp] theorem State.beginExcl_sec (c : Nat) (o : Option SessKey) : (s.beginExcl c o).sec = s.sec := by unfold State.beginExcl; split <;> rfl
@[simp] theorem State.beginExcl_obs (c : Nat) (o : Option SessKey) : (s.beginExcl c o).obs = s.obs := by unfold State.beginExcl; split <;> rfl
@[simp] theorem State.beginExcl_out (c : Nat) (o : Option SessKey) : (s.beginExcl c o).out = s.out := by unfold State.beginExcl; split <;> rfl
@[simp] theorem State.beginExcl_free (c : Nat) (o : Option SessKey) : (s.beginExcl c o).free = s.free := by unfold State.beginExcl; split <;> rfl
@[simp] theorem State.beginExcl_pending (c : Nat) (o : Option SessKey) : (s.beginExcl c o).pending = s.pending := by unfold State.beginExcl; split <;> rfl

/-! ## endExcl -/

@[simp] theorem State.endExcl_label (c : Nat) (o : Option SessKey) : (s.endExcl c o).label = s.label := rfl
@[simp] theorem State.endExcl_time (c : Nat) (o : Option SessKey) : (s.endExcl c o).time = s.time := rfl
@[simp] theorem State.endExcl_su (c : Nat) (o : Option SessKey) : (s.endExcl c o).su = s.su := rfl
@[simp] theorem State.endExcl_parts (c : Nat) (o : Option SessKey) : (s.endExcl c o).parts = s.parts := rfl
@[simp] theorem State.endExcl_mem (c : Nat) (o : Option SessKey) : (s.endExcl c o).mem = s.mem := rfl
@[simp] theorem State.endExcl_fab (c : Nat) (o : Option SessKey) : (s.endExcl c o).fab = s.fab := rfl
@[simp] theorem State.endExcl_ae (c : Nat) (o : Option SessKey) : (s.endExcl c o).ae = s.ae := rfl
@[simp] theorem State.endExcl_trans (c : Nat) (o : Option SessKey) : (s.endExcl c o).trans = s.trans := rfl
@[simp] theorem State.endExcl_boot (c : Nat) (o : Option SessKey) : (s.endExcl c o).boot = s.boot := rfl
@[simp] theorem State.endExcl_twin (c : Nat) (o : Option SessKey) : (s.endExcl c o).twin = s.twin := rfl
@[simp] theorem State.endExcl_job (c : Nat) (o : Option SessKey) : (s.endExcl c o).job = s.job := rfl
@[simp] theorem State.endExcl_pwr (c : Nat) (o : Option SessKey) : (s.endExcl c o).pwr = s.pwr := rfl
@[simp] theorem State.endExcl_sec (c : Nat) (o : Option SessKey) : (s.endExcl c o).sec = s.sec := rfl
@[simp] theorem State.endExcl_obs (c : Nat) (o : Option SessKey) : (s.endExcl c o).obs = s.obs := rfl
@[simp] theorem State.endExcl_out (c : Nat) (o : Option SessKey) : (s.endExcl c o).out = s.out := rfl
@[simp] theorem State.endExcl_free (c : Nat) (o : Option SessKey) : (s.endExcl c o).free = s.free := rfl
@[simp] theorem State.endExcl_pending (c : Nat) (o : Option SessKey) : (s.endExcl c o).pending = s.pending := rfl

/-! ## endCode -/

@[simp] theorem State.endCode_label (c : Nat) : (s.endCode c).label = s.label := rfl
@[simp] theorem State.endCode_time (c : Nat) : (s.endCode c).time = s.time := rfl
@[simp] theorem State.endCode_su (c : Nat) : (s.endCode c).su = s.su := rfl
@[simp] theorem State.endCode_parts (c : Nat) : (s.endCode c).parts = s.parts := rfl
@[simp] theorem State.endCode_mem (c : Nat) : (s.endCode c).mem = s.mem := rfl
@[simp] theorem State.endCode_fab (c : Nat) : (s.endCode c).fab = s.fab := rfl
@[simp] theorem State.endCode_ae (c : Nat) : (s.endCode c).ae = s.ae := rfl
@[simp] theorem State.endCode_trans (c : Nat) : (s.endCode c).trans = s.trans := rfl
@[simp] theorem State.endCode_boot (c : Nat) : (s.endCode c).boot = s.boot := rfl
@[simp] theorem State.endCode_twin (c : Nat) : (s.endCode c).twin = s.twin := rfl
@[simp] theorem State.endCode_job (c : Nat) : (s.endCode c).job = s.job := rfl
@[simp] theorem State.endCode_pwr (c : Nat) : (s.endCode c).pwr = s.pwr := rfl
@[simp] theorem State.endCode_sec (c : Nat) : (s.endCode c).sec = s.sec := rfl
@[simp] theorem State.endCode_obs (c : Nat) : (s.endCode c).obs = s.obs := rfl
@[simp] theorem State.endCode_out (c : Nat) : (s.endCode c).out = s.out := rfl
@[simp] theorem State.endCode_free (c : Nat) : (s.endCode c).free = s.free := rfl
@[simp] theorem State.endCode_pending (c : Nat) : (s.endCode c).pending = s.pending := rfl

/-! ## openThrottle -/

@[simp] theorem State.openThrottle_label (r d n : Nat) : (s.openThrottle r d n).label = s.label := rfl
@[simp] theorem State.openThrottle_time (r d n : Nat) : (s.openThrottle r d n).time = s.time := rfl
@[simp] theorem State.openThrottle_su (r d n : Nat) : (s.openThrottle r d n).su = s.su := rfl
@[simp] theorem State.openThrottle_parts (r d n : Nat) : (s.openThrottle r d n).parts = s.parts := rfl
@[simp] theorem State.openThrottle_mem (r d n : Nat) : (s.openThrottle r d n).mem = s.mem := rfl
@[simp] theorem State.openThrottle_fab (r d n : Nat) : (s.openThrottle r d n).fab = s.fab := rfl
@[simp] theorem State.openThrottle_sess (r d n : Nat) : (s.openThrottle r d n).sess = s.sess := rfl
@[simp] theorem State.openThrottle_ae (r d n : Nat) : (s.openThrottle r d n).ae = s.ae := rfl
@[simp] theorem State.openThrottle_trans (r d n : Nat) : (s.openThrottle r d n).trans = s.trans := rfl
@[simp] theorem State.openThrottle_boot (r d n : Nat) : (s.openThrottle r d n).boot = s.boot := rfl
@[simp] theorem State.openThrottle_twin (r d n : Nat) : (s.openThrottle r d n).twin = s.twin := rfl
@[simp] theorem State.openThrottle_job (r d n : Nat) : (s.openThrottle r d n).job = s.job := rfl
@[simp] theorem State.openThrottle_sec (r d n : Nat) : (s.openThrottle r d n).sec = s.sec := rfl
@[simp] theorem State.openThrottle_obs (r d n : Nat) : (s.openThrottle r d n).obs = s.obs := rfl
@[simp] theorem State.openThrottle_out (r d n : Nat) : (s.openThrottle r d n).out = s.out := rfl
@[simp] theorem State.openThrottle_free (r d n : Nat) : (s.openThrottle r d n).free = s.free := rfl
@[simp] theorem State.openThrottle_pending (r d n : Nat) : (s.openThrottle r d n).pending = s.pending := rfl

/-! ## deepen -/

@[simp] theorem State.deepen_label (r d n : Nat) : (s.deepen r d n).label = s.label := rfl
@[simp] theorem State.deepen_time (r d n : Nat) : (s.deepen r d n).time = s.time := rfl
@[simp] theorem State.deepen_su (r d n : Nat) : (s.deepen r d n).su = s.su := rfl
@[simp] theorem State.deepen_parts (r d n : Nat) : (s.deepen r d n).parts = s.parts := rfl
@[simp] theorem State.deepen_mem (r d n : Nat) : (s.deepen r d n).mem = s.mem := rfl
@[simp] theorem State.deepen_fab (r d n : Nat) : (s.deepen r d n).fab = s.fab := rfl
@[simp] theorem State.deepen_sess (r d n : Nat) : (s.deepen r d n).sess = s.sess := rfl
@[simp] theorem State.deepen_ae (r d n : Nat) : (s.deepen r d n).ae = s.ae := rfl
@[simp] theorem State.deepen_trans (r d n : Nat) : (s.deepen r d n).trans = s.trans := rfl
@[simp] theorem State.deepen_boot (r d n : Nat) : (s.deepen r d n).boot = s.boot := rfl
@[simp] theorem State.deepen_twin (r d n : Nat) : (s.deepen r d n).twin = s.twin := rfl
@[simp] theorem State.deepen_job (r d n : Nat) : (s.deepen r d n).job = s.job := rfl
@[simp] theorem State.deepen_sec (r d n : Nat) : (s.deepen r d n).sec = s.sec := rfl
@[simp] theorem State.deepen_obs (r d n : Nat) : (s.deepen r d n).obs = s.obs := rfl
@[simp] theorem State.deepen_out (r d n : Nat) : (s.deepen r d n).out = s.out := rfl
@[simp] theorem State.deepen_free (r d n : Nat) : (s.deepen r d n).free = s.free := rfl
@[simp] theorem State.deepen_pending (r d n : Nat) : (s.deepen r d n).pending = s.pending := rfl

end Sys2Proof.Machine
end

