-- ==== Sys2Proof/Laws/Ops.lean ====
section
/-! SUPPORT. Laws/Ops.lean: what the shared operations can do, said once: the units that a command names, what an alarm, an event, a trace record, a counter,
a throttle event and a health entry change, and the results of a named partition, port, link die or subchannel. -/
namespace Sys2Proof.Machine

/-! ## Units that a command names -/

theorem inPart_next {s : State} {p : Nat} (t : State) (h : p < s.label.variant.parts) : inPart s p t = .next t := if_pos h
theorem inPart_fault {s : State} {p : Nat} (t : State) (h : s.label.variant.parts ≤ p) : inPart s p t = .fault .noSuchUnit := if_neg (Nat.not_lt.mpr h)
theorem inPort_next {s : State} {p : Nat} (t : State) (h : p < s.label.variant.ports) : inPort s p t = .next t := if_pos h
theorem inPort_fault {s : State} {p : Nat} (t : State) (h : s.label.variant.ports ≤ p) : inPort s p t = .fault .noSuchUnit := if_neg (Nat.not_lt.mpr h)
theorem inSub_next {s : State} {g : Nat} (t : State) (h : g < 48 * s.label.variant.stacks) : inSub s g t = .next t := if_pos h
theorem inSub_fault {s : State} {g : Nat} (t : State) (h : 48 * s.label.variant.stacks ≤ g) : inSub s g t = .fault .noSuchUnit := if_neg (Nat.not_lt.mpr h)
theorem inLink_next {s : State} {d : Nat} (t : State) (h : d < s.label.variant.linkDies) : inLink s d t = .next t := if_pos h
theorem inLink_fault {s : State} {d : Nat} (t : State) (h : s.label.variant.linkDies ≤ d) : inLink s d t = .fault .noSuchUnit := if_neg (Nat.not_lt.mpr h)

/-- A command that names a unit answers either the next state given or the fault of a unit that does not exist. -/
theorem inPart_cases (s : State) (p : Nat) (t : State) : inPart s p t = .next t ∨ inPart s p t = .fault .noSuchUnit := by
  unfold inPart; split <;> simp
theorem inPort_cases (s : State) (p : Nat) (t : State) : inPort s p t = .next t ∨ inPort s p t = .fault .noSuchUnit := by
  unfold inPort; split <;> simp
theorem inSub_cases (s : State) (g : Nat) (t : State) : inSub s g t = .next t ∨ inSub s g t = .fault .noSuchUnit := by
  unfold inSub; split <;> simp
theorem inLink_cases (s : State) (d : Nat) (t : State) : inLink s d t = .next t ∨ inLink s d t = .fault .noSuchUnit := by
  unfold inLink; split <;> simp

/-! ## Partitions and ports -/

theorem State.part_setPart_ne (s : State) (p q : Nat) (x : Part) (h : q ≠ p) : (s.setPart p x).part q = s.part q := by
  unfold State.part State.setPart
  rw [Vector.getElem?_setIfInBounds_ne (Ne.symm h)]

theorem State.part_modPart_ne (s : State) (p q : Nat) (f : Part → Part) (h : q ≠ p) : (s.modPart p f).part q = s.part q :=
  State.part_setPart_ne s p q _ h

theorem State.part_modPart_self (s : State) (p : Nat) (f : Part → Part) (h : p < 16) : (s.modPart p f).part p = f (s.part p) := by
  unfold State.modPart State.part State.setPart
  simp [h]

theorem State.port_modPort_ne (s : State) (p q : Nat) (f : PortState → PortState) (h : q ≠ p) : (s.modPort p f).port q = s.port q := by
  unfold State.port State.modPort
  simp only []
  rw [Vector.getElem?_setIfInBounds_ne (Ne.symm h)]

theorem State.port_modPort_self (s : State) (p : Nat) (f : PortState → PortState) (h : p < 32) : (s.modPort p f).port p = f (s.port p) := by
  unfold State.modPort State.port
  simp [h]

/-! ## Observation: alarms, events and trace records change nothing but the observation state -/

theorem loseTrace_obs (s : State) (r : TraceRec) : ∃ o, loseTrace s r = { s with obs := o } := ⟨_, rfl⟩

theorem bufferTrace_obs (s : State) (t : TraceEntry) (r : TraceRec) : ∃ o, bufferTrace s t r = { s with obs := o } := by
  unfold bufferTrace
  simp only []
  repeat' split
  all_goals exact ⟨_, rfl⟩

theorem State.trace_obs (s : State) (r : TraceRec) : ∃ o, s.trace r = { s with obs := o } := by
  unfold State.trace
  split
  · split
    · exact bufferTrace_obs s _ r
    · exact ⟨_, rfl⟩
  · exact ⟨_, rfl⟩

theorem State.alarm_obs (s : State) (n : Notice) : ∃ o, s.alarm n = { s with obs := o } := by
  unfold State.alarm
  simp only []
  obtain ⟨o, h⟩ := State.trace_obs { s with obs := _ } _
  exact ⟨o, h⟩

theorem State.eventAt_obs (s : State) (n : Notice) (ft : BitVec 64) : ∃ o, s.eventAt n ft = { s with obs := o } := by
  unfold State.eventAt
  simp only []
  split
  · exact ⟨_, rfl⟩
  · split
    · obtain ⟨o, h⟩ := State.trace_obs { (s.count (modCtr 0x0081 0)) with obs := _ } _
      exact ⟨o, h⟩
    · obtain ⟨o, h⟩ := State.trace_obs { s with obs := _ } _
      exact ⟨o, h⟩

theorem State.event_obs (s : State) (n : Notice) : ∃ o, s.event n = { s with obs := o } := State.eventAt_obs s n _

@[simp] theorem State.trace_label (s : State) (r : TraceRec) : (s.trace r).label = s.label := by obtain ⟨o, h⟩ := s.trace_obs r; rw [h]
@[simp] theorem State.trace_time (s : State) (r : TraceRec) : (s.trace r).time = s.time := by obtain ⟨o, h⟩ := s.trace_obs r; rw [h]
@[simp] theorem State.trace_su (s : State) (r : TraceRec) : (s.trace r).su = s.su := by obtain ⟨o, h⟩ := s.trace_obs r; rw [h]
@[simp] theorem State.trace_parts (s : State) (r : TraceRec) : (s.trace r).parts = s.parts := by obtain ⟨o, h⟩ := s.trace_obs r; rw [h]
@[simp] theorem State.trace_mem (s : State) (r : TraceRec) : (s.trace r).mem = s.mem := by obtain ⟨o, h⟩ := s.trace_obs r; rw [h]
@[simp] theorem State.trace_fab (s : State) (r : TraceRec) : (s.trace r).fab = s.fab := by obtain ⟨o, h⟩ := s.trace_obs r; rw [h]
@[simp] theorem State.trace_sess (s : State) (r : TraceRec) : (s.trace r).sess = s.sess := by obtain ⟨o, h⟩ := s.trace_obs r; rw [h]
@[simp] theorem State.trace_ae (s : State) (r : TraceRec) : (s.trace r).ae = s.ae := by obtain ⟨o, h⟩ := s.trace_obs r; rw [h]
@[simp] theorem State.trace_trans (s : State) (r : TraceRec) : (s.trace r).trans = s.trans := by obtain ⟨o, h⟩ := s.trace_obs r; rw [h]
@[simp] theorem State.trace_boot (s : State) (r : TraceRec) : (s.trace r).boot = s.boot := by obtain ⟨o, h⟩ := s.trace_obs r; rw [h]
@[simp] theorem State.trace_twin (s : State) (r : TraceRec) : (s.trace r).twin = s.twin := by obtain ⟨o, h⟩ := s.trace_obs r; rw [h]
@[simp] theorem State.trace_job (s : State) (r : TraceRec) : (s.trace r).job = s.job := by obtain ⟨o, h⟩ := s.trace_obs r; rw [h]
@[simp] theorem State.trace_pwr (s : State) (r : TraceRec) : (s.trace r).pwr = s.pwr := by obtain ⟨o, h⟩ := s.trace_obs r; rw [h]
@[simp] theorem State.trace_sec (s : State) (r : TraceRec) : (s.trace r).sec = s.sec := by obtain ⟨o, h⟩ := s.trace_obs r; rw [h]
@[simp] theorem State.trace_out (s : State) (r : TraceRec) : (s.trace r).out = s.out := by obtain ⟨o, h⟩ := s.trace_obs r; rw [h]
@[simp] theorem State.trace_free (s : State) (r : TraceRec) : (s.trace r).free = s.free := by obtain ⟨o, h⟩ := s.trace_obs r; rw [h]
@[simp] theorem State.trace_pending (s : State) (r : TraceRec) : (s.trace r).pending = s.pending := by obtain ⟨o, h⟩ := s.trace_obs r; rw [h]

@[simp] theorem State.alarm_label (s : State) (n : Notice) : (s.alarm n).label = s.label := by obtain ⟨o, h⟩ := s.alarm_obs n; rw [h]
@[simp] theorem State.alarm_time (s : State) (n : Notice) : (s.alarm n).time = s.time := by obtain ⟨o, h⟩ := s.alarm_obs n; rw [h]
@[simp] theorem State.alarm_su (s : State) (n : Notice) : (s.alarm n).su = s.su := by obtain ⟨o, h⟩ := s.alarm_obs n; rw [h]
@[simp] theorem State.alarm_parts (s : State) (n : Notice) : (s.alarm n).parts = s.parts := by obtain ⟨o, h⟩ := s.alarm_obs n; rw [h]
@[simp] theorem State.alarm_mem (s : State) (n : Notice) : (s.alarm n).mem = s.mem := by obtain ⟨o, h⟩ := s.alarm_obs n; rw [h]
@[simp] theorem State.alarm_fab (s : State) (n : Notice) : (s.alarm n).fab = s.fab := by obtain ⟨o, h⟩ := s.alarm_obs n; rw [h]
@[simp] theorem State.alarm_sess (s : State) (n : Notice) : (s.alarm n).sess = s.sess := by obtain ⟨o, h⟩ := s.alarm_obs n; rw [h]
@[simp] theorem State.alarm_ae (s : State) (n : Notice) : (s.alarm n).ae = s.ae := by obtain ⟨o, h⟩ := s.alarm_obs n; rw [h]
@[simp] theorem State.alarm_trans (s : State) (n : Notice) : (s.alarm n).trans = s.trans := by obtain ⟨o, h⟩ := s.alarm_obs n; rw [h]
@[simp] theorem State.alarm_boot (s : State) (n : Notice) : (s.alarm n).boot = s.boot := by obtain ⟨o, h⟩ := s.alarm_obs n; rw [h]
@[simp] theorem State.alarm_twin (s : State) (n : Notice) : (s.alarm n).twin = s.twin := by obtain ⟨o, h⟩ := s.alarm_obs n; rw [h]
@[simp] theorem State.alarm_job (s : State) (n : Notice) : (s.alarm n).job = s.job := by obtain ⟨o, h⟩ := s.alarm_obs n; rw [h]
@[simp] theorem State.alarm_pwr (s : State) (n : Notice) : (s.alarm n).pwr = s.pwr := by obtain ⟨o, h⟩ := s.alarm_obs n; rw [h]
@[simp] theorem State.alarm_sec (s : State) (n : Notice) : (s.alarm n).sec = s.sec := by obtain ⟨o, h⟩ := s.alarm_obs n; rw [h]
@[simp] theorem State.alarm_out (s : State) (n : Notice) : (s.alarm n).out = s.out := by obtain ⟨o, h⟩ := s.alarm_obs n; rw [h]
@[simp] theorem State.alarm_free (s : State) (n : Notice) : (s.alarm n).free = s.free := by obtain ⟨o, h⟩ := s.alarm_obs n; rw [h]
@[simp] theorem State.alarm_pending (s : State) (n : Notice) : (s.alarm n).pending = s.pending := by obtain ⟨o, h⟩ := s.alarm_obs n; rw [h]

@[simp] theorem State.eventAt_label (s : State) (n : Notice) (ft : BitVec 64) : (s.eventAt n ft).label = s.label := by obtain ⟨o, h⟩ := s.eventAt_obs n ft; rw [h]
@[simp] theorem State.eventAt_time (s : State) (n : Notice) (ft : BitVec 64) : (s.eventAt n ft).time = s.time := by obtain ⟨o, h⟩ := s.eventAt_obs n ft; rw [h]
@[simp] theorem State.eventAt_su (s : State) (n : Notice) (ft : BitVec 64) : (s.eventAt n ft).su = s.su := by obtain ⟨o, h⟩ := s.eventAt_obs n ft; rw [h]
@[simp] theorem State.eventAt_parts (s : State) (n : Notice) (ft : BitVec 64) : (s.eventAt n ft).parts = s.parts := by obtain ⟨o, h⟩ := s.eventAt_obs n ft; rw [h]
@[simp] theorem State.eventAt_mem (s : State) (n : Notice) (ft : BitVec 64) : (s.eventAt n ft).mem = s.mem := by obtain ⟨o, h⟩ := s.eventAt_obs n ft; rw [h]
@[simp] theorem State.eventAt_fab (s : State) (n : Notice) (ft : BitVec 64) : (s.eventAt n ft).fab = s.fab := by obtain ⟨o, h⟩ := s.eventAt_obs n ft; rw [h]
@[simp] theorem State.eventAt_sess (s : State) (n : Notice) (ft : BitVec 64) : (s.eventAt n ft).sess = s.sess := by obtain ⟨o, h⟩ := s.eventAt_obs n ft; rw [h]
@[simp] theorem State.eventAt_ae (s : State) (n : Notice) (ft : BitVec 64) : (s.eventAt n ft).ae = s.ae := by obtain ⟨o, h⟩ := s.eventAt_obs n ft; rw [h]
@[simp] theorem State.eventAt_trans (s : State) (n : Notice) (ft : BitVec 64) : (s.eventAt n ft).trans = s.trans := by obtain ⟨o, h⟩ := s.eventAt_obs n ft; rw [h]
@[simp] theorem State.eventAt_boot (s : State) (n : Notice) (ft : BitVec 64) : (s.eventAt n ft).boot = s.boot := by obtain ⟨o, h⟩ := s.eventAt_obs n ft; rw [h]
@[simp] theorem State.eventAt_twin (s : State) (n : Notice) (ft : BitVec 64) : (s.eventAt n ft).twin = s.twin := by obtain ⟨o, h⟩ := s.eventAt_obs n ft; rw [h]
@[simp] theorem State.eventAt_job (s : State) (n : Notice) (ft : BitVec 64) : (s.eventAt n ft).job = s.job := by obtain ⟨o, h⟩ := s.eventAt_obs n ft; rw [h]
@[simp] theorem State.eventAt_pwr (s : State) (n : Notice) (ft : BitVec 64) : (s.eventAt n ft).pwr = s.pwr := by obtain ⟨o, h⟩ := s.eventAt_obs n ft; rw [h]
@[simp] theorem State.eventAt_sec (s : State) (n : Notice) (ft : BitVec 64) : (s.eventAt n ft).sec = s.sec := by obtain ⟨o, h⟩ := s.eventAt_obs n ft; rw [h]
@[simp] theorem State.eventAt_out (s : State) (n : Notice) (ft : BitVec 64) : (s.eventAt n ft).out = s.out := by obtain ⟨o, h⟩ := s.eventAt_obs n ft; rw [h]
@[simp] theorem State.eventAt_free (s : State) (n : Notice) (ft : BitVec 64) : (s.eventAt n ft).free = s.free := by obtain ⟨o, h⟩ := s.eventAt_obs n ft; rw [h]
@[simp] theorem State.eventAt_pending (s : State) (n : Notice) (ft : BitVec 64) : (s.eventAt n ft).pending = s.pending := by obtain ⟨o, h⟩ := s.eventAt_obs n ft; rw [h]

@[simp] theorem State.event_label (s : State) (n : Notice) : (s.event n).label = s.label := by obtain ⟨o, h⟩ := s.event_obs n; rw [h]
@[simp] theorem State.event_time (s : State) (n : Notice) : (s.event n).time = s.time := by obtain ⟨o, h⟩ := s.event_obs n; rw [h]
@[simp] theorem State.event_su (s : State) (n : Notice) : (s.event n).su = s.su := by obtain ⟨o, h⟩ := s.event_obs n; rw [h]
@[simp] theorem State.event_parts (s : State) (n : Notice) : (s.event n).parts = s.parts := by obtain ⟨o, h⟩ := s.event_obs n; rw [h]
@[simp] theorem State.event_mem (s : State) (n : Notice) : (s.event n).mem = s.mem := by obtain ⟨o, h⟩ := s.event_obs n; rw [h]
@[simp] theorem State.event_fab (s : State) (n : Notice) : (s.event n).fab = s.fab := by obtain ⟨o, h⟩ := s.event_obs n; rw [h]
@[simp] theorem State.event_sess (s : State) (n : Notice) : (s.event n).sess = s.sess := by obtain ⟨o, h⟩ := s.event_obs n; rw [h]
@[simp] theorem State.event_ae (s : State) (n : Notice) : (s.event n).ae = s.ae := by obtain ⟨o, h⟩ := s.event_obs n; rw [h]
@[simp] theorem State.event_trans (s : State) (n : Notice) : (s.event n).trans = s.trans := by obtain ⟨o, h⟩ := s.event_obs n; rw [h]
@[simp] theorem State.event_boot (s : State) (n : Notice) : (s.event n).boot = s.boot := by obtain ⟨o, h⟩ := s.event_obs n; rw [h]
@[simp] theorem State.event_twin (s : State) (n : Notice) : (s.event n).twin = s.twin := by obtain ⟨o, h⟩ := s.event_obs n; rw [h]
@[simp] theorem State.event_job (s : State) (n : Notice) : (s.event n).job = s.job := by obtain ⟨o, h⟩ := s.event_obs n; rw [h]
@[simp] theorem State.event_pwr (s : State) (n : Notice) : (s.event n).pwr = s.pwr := by obtain ⟨o, h⟩ := s.event_obs n; rw [h]
@[simp] theorem State.event_sec (s : State) (n : Notice) : (s.event n).sec = s.sec := by obtain ⟨o, h⟩ := s.event_obs n; rw [h]
@[simp] theorem State.event_out (s : State) (n : Notice) : (s.event n).out = s.out := by obtain ⟨o, h⟩ := s.event_obs n; rw [h]
@[simp] theorem State.event_free (s : State) (n : Notice) : (s.event n).free = s.free := by obtain ⟨o, h⟩ := s.event_obs n; rw [h]
@[simp] theorem State.event_pending (s : State) (n : Notice) : (s.event n).pending = s.pending := by obtain ⟨o, h⟩ := s.event_obs n; rw [h]

/-! ## The job's stop, and what is sent in a row -/

/-- A change of one owner, and of all, leaves the rest of the partition. -/
theorem Part.modOwner_frame (x : Part) (o : Owner) (f : OwnerState → OwnerState) :
    ∃ cs cc, x.modOwner o f = { x with clusters := cs, cc := cc } := by
  cases o <;> exact ⟨_, _, rfl⟩
theorem Part.mapOwners_frame (x : Part) (f : OwnerState → OwnerState) : ∃ cs cc, x.mapOwners f = { x with clusters := cs, cc := cc } := by
  unfold Part.mapOwners
  generalize allOwners = l
  induction l generalizing x with
  | nil => exact ⟨_, _, rfl⟩
  | cons o l ih =>
    obtain ⟨c, d, h⟩ := x.modOwner_frame o f
    obtain ⟨c', d', h'⟩ := ih (x.modOwner o f)
    exact ⟨c', d', by rw [List.foldl_cons, h', h]⟩

/-- What a stop of the job can change: streams of PROGRAM 2, captures and commits, protection, and the job itself. -/
theorem State.haltJob_frame (s : State) : ∃ ps tw pr tc j, s.haltJob =
    { s with parts := ps, twin := tw, job := j, mem := { s.mem with protect := pr, touch := tc } } ∧ j.committed = s.job.committed ∧
    (s.job.phase = .running ∨ s.job.phase = .between ∨ s.job.phase = .done → j.phase = .waiting ∧ j.open_ = []) := by
  unfold State.haltJob
  split
  · exact ⟨_, _, _, _, _, rfl, rfl, fun _ => ⟨rfl, rfl⟩⟩
  · rename_i h
    refine ⟨s.parts, s.twin, s.mem.protect, s.mem.touch, _, rfl, rfl, fun g => ?_⟩
    simp at h; tauto

/-- A partition keeps all but its owners' streams when the job stops. -/
theorem State.haltJob_part (s : State) (p : Nat) : ∃ cs cc, s.haltJob.part p = { s.part p with clusters := cs, cc := cc } := by
  unfold State.haltJob
  split
  · by_cases h : p < 16
    · obtain ⟨c, d, e⟩ := (s.part p).mapOwners_frame fun o => { o with job := .reset, grant := false }
      refine ⟨c, d, ?_⟩
      rw [← e]
      simp [State.pruneProtect, State.modTwin, State.mapParts, State.part, h]
    · exact ⟨_, _, by simp [State.pruneProtect, State.modTwin, State.mapParts, State.part, h]; rfl⟩
  · exact ⟨_, _, rfl⟩
/-- Many outputs sent one after another stand in `out`, the last in front. -/
theorem State.emit_all {α : Type} (l : List α) (f : α → Out) (s : State) :
    l.foldl (fun s x => s.emit (f x)) s = { s with out := (l.map f).reverse ++ s.out } := by
  induction l generalizing s with
  | nil => rfl
  | cons a l ih => rw [List.foldl_cons, ih]; simp [State.emit]

end Sys2Proof.Machine
end

