-- ==== Sys2Proof/Laws/Home.lean ====
section
/-! SUPPORT. Laws/Home.lean: what serving a request and a system write leave alone. -/
namespace Sys2Proof.Machine

/-- The shadow sessions of a twinned module, its queue, what is fixed at manufacture, and the plate. -/
def State.aside (s : State) : List Session × List Instr × LabelState × Option Plate := (s.sess.shadow, s.pending, s.label, s.boot.plate)

@[simp] theorem State.aside_count (s : State) (k : CtrKey) (n : Nat) : (s.count k n).aside = s.aside := by unfold State.count; split <;> rfl
@[simp] theorem State.aside_emit (s : State) (o : Out) : (s.emit o).aside = s.aside := rfl
@[simp] theorem State.aside_modPort (s : State) (p : Nat) (f : PortState → PortState) : (s.modPort p f).aside = s.aside := rfl
@[simp] theorem State.aside_setPart (s : State) (p : Nat) (x : Part) : (s.setPart p x).aside = s.aside := rfl
@[simp] theorem State.aside_modPart (s : State) (p : Nat) (f : Part → Part) : (s.modPart p f).aside = s.aside := rfl
@[simp] theorem State.aside_mapSessions (s : State) (f : Session → Session) : (s.mapSessions f).aside = s.aside := rfl
theorem State.aside_obs (s : State) (o : ObsState) : ({ s with obs := o } : State).aside = s.aside := rfl
@[simp] theorem State.aside_alarm (s : State) (n : Notice) : (s.alarm n).aside = s.aside := by
  obtain ⟨o, h⟩ := s.alarm_obs n
  rw [h, State.aside_obs]
@[simp] theorem State.aside_event (s : State) (n : Notice) : (s.event n).aside = s.aside := by
  obtain ⟨o, h⟩ := s.event_obs n
  rw [h, State.aside_obs]
@[simp] theorem State.aside_modSub (s : State) (g : Nat) (f : SubState → SubState) : (s.modSub g f).aside = s.aside := rfl
@[simp] theorem State.aside_health (s : State) (k g b r : Nat) : (s.health k g b r).aside = s.aside := rfl
@[simp] theorem State.aside_triggerMapOut (s : State) (g : Nat) : (s.triggerMapOut g).aside = s.aside := by
  unfold State.triggerMapOut
  simp only []
  repeat' split
  all_goals rfl
@[simp] theorem State.aside_markLane (s : State) (g l : Nat) : (s.markLane g l).aside = s.aside := by
  unfold State.markLane
  rw [State.aside_triggerMapOut, State.aside_modSub]
@[simp] theorem State.aside_loseSub (s : State) (g : Nat) : (s.loseSub g).aside = s.aside := rfl
@[simp] theorem State.aside_rowFault (s : State) (g r b : Nat) : (s.rowFault g r b).aside = s.aside := by
  unfold State.rowFault
  simp only []
  split
  · exact s.aside_triggerMapOut g
  · rw [State.aside_event, State.aside_count]; rfl
@[simp] theorem State.aside_transient (s : State) (g r b : Nat) : (s.transient g r b).aside = s.aside := by
  unfold State.transient
  simp only []
  split
  · rw [State.aside_rowFault, State.aside_modSub, State.aside_count, State.aside_modSub]
  · rw [State.aside_count, State.aside_modSub]
theorem State.aside_readBurstAt (s : State) (pl : Place) (d : List Byte) (n : BurstNoise) : (s.readBurstAt pl d n).1.aside = s.aside := by
  unfold State.readBurstAt
  simp only []
  split <;> simp
theorem State.aside_readBursts (pl : Option Place) (noise : ReadNoise) (gi : Nat) (l : List (List Byte × Nat)) :
    ∀ s : State, (s.readBursts pl noise gi l).1.aside = s.aside := by
  induction l with
  | nil => exact fun s => rfl
  | cons x r ih =>
    obtain ⟨d, q⟩ := x
    intro s
    have h : ∀ first : State × Option (List Byte), first.1.aside = s.aside →
        (match first with
          | (s, none) => (s, none)
          | (s, some d) => let rest := s.readBursts pl noise gi r; (rest.1, rest.2.map fun t => d ++ t) : State × Option (List Byte)).1.aside = s.aside := by
      rintro ⟨t, _ | e⟩ ht
      · exact ht
      · exact (ih t).trans ht
    unfold State.readBursts
    apply h
    split
    · exact s.aside_readBurstAt _ _ _
    · rfl
@[simp] theorem State.aside_readGranule (s : State) (f g : Nat) (n : ReadNoise) (gi : Nat) : (s.readGranule f g n gi).1.aside = s.aside := by
  unfold State.readGranule
  simp only []
  rw [State.aside_count, State.aside_readBursts]; rfl
@[simp] theorem State.aside_writeGranule (s : State) (f g : Nat) (b : List Byte) : (s.writeGranule f g b).aside = s.aside := by
  unfold State.writeGranule
  simp only []
  rw [State.aside_count]; rfl
theorem State.aside_valueOf (s : State) (a : GAddr) (f : Nat) (n : ReadNoise) (gi : Nat) : (s.valueOf a f n gi).1.aside = s.aside := by
  unfold State.valueOf
  split
  · rfl
  · exact s.aside_readGranule _ _ _ _
@[simp] theorem State.aside_touch (s : State) (a : GAddr) (d : Granule) : (s.touch a d).aside = s.aside := by unfold State.touch; split <;> rfl
@[simp] theorem State.aside_applyWrite (s : State) (a : GAddr) (f : Nat) (d : Granule) : (s.applyWrite a f d).aside = s.aside := by
  have h : ∀ t : State, t.aside = s.aside →
      (if t.frozen (gaBlock a) then t.freezePut a d else t.writeGranule f (gaInBlock a / 128) (granuleBytes d)).aside = s.aside := by
    intro t e
    split
    · exact e
    · rw [State.aside_writeGranule]; exact e
  unfold State.applyWrite
  simp only []
  apply h
  split
  · exact s.aside_touch _ _
  · rfl

/-- A fold of steps that leave these aside leaves them aside. -/
theorem State.aside_foldl {α : Type} (f : State → α → State) (h : ∀ s x, (f s x).aside = s.aside) (l : List α) :
    ∀ s, (l.foldl f s).aside = s.aside := by
  induction l with
  | nil => exact fun s => rfl
  | cons x r ih => exact fun s => (ih _).trans (h s x)

@[simp] theorem State.aside_takeRing (s : State) (a : GAddr) (d : List Byte) (m : Nat) : (s.takeRing a d m).aside = s.aside := by
  unfold State.takeRing
  split
  · rfl
  · simp only []
    split
    · rfl
    · refine State.aside_foldl _ (fun s k => ?_) _ _
      split <;> rfl
@[simp] theorem State.aside_takeCopy (s : State) (p : Packet) : (s.takeCopy p).aside = s.aside := by
  unfold State.takeCopy
  split
  · rfl
  · exact State.aside_foldl _ (fun s k => s.aside_writeGranule _ _ _) _ _
theorem State.aside_readRun (p : Packet) (f : Nat) (noise : ReadNoise) (n : Nat) : ∀ (k : Nat) (s : State),
    (s.readRun p f noise n k).1.aside = s.aside := by
  induction n with
  | zero => exact fun k s => rfl
  | succ n ih =>
    intro k s
    unfold State.readRun
    have h := s.aside_valueOf (p.addrAt k) f noise k
    split
    · rename_i t e; rw [e] at h; exact h
    · rename_i t d e
      rw [e] at h
      have g := ih (k + 1) t
      split
      · rename_i u r e2; rw [e2] at g; exact g.trans h
      · rename_i u r e2; rw [e2] at g; exact g.trans h
@[simp] theorem State.aside_signal (s : State) (p : Nat) (g : Signal) : (s.signal p g).aside = s.aside := by
  unfold State.signal
  split <;> first | rfl | simp

/-- The state that serving leaves. -/
def Served.state : Served → State
  | .answer s _ => s
  | .wait s _ => s

@[simp] theorem Served.state_answer (s : State) (r : Packet) : (Served.answer s r).state = s := rfl
@[simp] theorem Served.state_wait (s : State) (w : WaitWhy) : (Served.wait s w).state = s := rfl

theorem State.aside_serveMem (s : State) (p : Packet) (f : Nat) (noise : ReadNoise) : (s.serveMem p f noise).state.aside = s.aside := by
  unfold State.serveMem
  have hr := State.aside_readRun p f noise p.count 0 s
  have hv := s.aside_valueOf p.addr f noise 0
  split
  · split
    · rename_i t gs e; rw [e] at hr; exact hr
    · rename_i t k e; rw [e] at hr; exact hr
  · split
    · rfl
    · exact State.aside_foldl _ (fun s g => s.aside_applyWrite _ _ _) _ _
  · split
    · rfl
    · split
      · rename_i t e; rw [e] at hv; exact hv
      · rename_i t old e
        rw [e] at hv
        simp only [Served.state_answer, State.aside_takeRing, State.aside_applyWrite]
        exact hv
    · rfl
  · split
    · rfl
    · rfl
    · split
      · rename_i t e; rw [e] at hv; exact hv
      · rename_i t b e
        rw [e] at hv
        simp only [Served.state_answer, State.aside_applyWrite]
        exact hv

theorem State.aside_serveMemory (s : State) (p : Packet) (noise : ReadNoise) : (s.serveMemory p noise).state.aside = s.aside := by
  unfold State.serveMemory
  simp only []
  repeat' split
  all_goals first
    | rfl
    | exact s.aside_takeCopy p
    | exact s.aside_serveMem _ _ _

theorem State.aside_serveScratch (s : State) (p : Packet) : (s.serveScratch p).state.aside = s.aside := by
  unfold State.serveScratch
  simp only []
  repeat' split
  all_goals rfl

theorem State.aside_serveSignal (s : State) (p : Packet) : (s.serveSignal p).state.aside = s.aside := by
  unfold State.serveSignal
  simp only []
  repeat' split
  all_goals first
    | rfl
    | exact s.aside_signal _ _

/-- Serving a request changes neither the shadow sessions nor the queue nor what is fixed at manufacture. -/
theorem State.aside_serve (s : State) (p : Packet) (noise : ReadNoise) : (s.serve p noise).state.aside = s.aside := by
  unfold State.serve
  repeat' split
  all_goals first
    | rfl
    | exact s.aside_serveMemory _ _
    | exact s.aside_serveScratch _
    | exact s.aside_serveSignal _

@[simp] theorem State.aside_leaveBuffer (s : State) (b : Option (Nat × Packet)) : (s.leaveBuffer b).aside = s.aside := by
  unfold State.leaveBuffer
  repeat' split
  all_goals rfl
@[simp] theorem State.aside_wait (s : State) (ld : Option Nat) (p : Packet) (w : WaitWhy) : (s.wait ld p w).aside = s.aside := by
  have h : ∀ t : State, t.aside = s.aside →
      (match w.counter with
        | some c => t.count ⟨c, p.spart.toNat, 0xFF, 0⟩
        | none => t).aside = s.aside := by
    intro t e
    split
    · rw [State.aside_count]; exact e
    · exact e
  unfold State.wait
  simp only []
  apply h
  split
  · rw [State.aside_leaveBuffer]; rfl
  · rfl
@[simp] theorem State.aside_transmit (s : State) (k : Nat) (p : Packet) : (s.transmit k p).aside = s.aside := by
  unfold State.transmit
  simp
@[simp] theorem State.aside_putPacket (s : State) (w : Transit) : (s.putPacket w).aside = s.aside := by
  unfold State.putPacket
  simp only []
  split
  · rw [State.aside_leaveBuffer, State.aside_transmit]
  · rfl
theorem State.aside_sendPacket (s : State) (p : Packet) (b : Option (Nat × Packet)) : (s.sendPacket p b).state.aside = s.aside := by
  unfold State.sendPacket
  repeat' split
  all_goals first
    | exact s.aside_count _ _
    | rfl
    | exact s.aside_putPacket _

/-- A system write changes neither the shadow sessions nor the queue nor what is fixed at manufacture. -/
@[simp] theorem State.aside_classWrite (s : State) (c : BitVec 2) (a : Nat) (b : List Byte) : (s.classWrite c a b).aside = s.aside := by
  unfold State.classWrite
  refine State.aside_foldl _ (fun s g => ?_) _ _
  simp only []
  have h := s.aside_serve { s.sysPacket g.1 g.2.1 g.2.2 with cls := c } []
  split
  · split
    · rename_i t r e; rw [e] at h; exact h
    · rename_i t w e; rw [e] at h; rw [State.aside_wait]; exact h
  · exact s.aside_sendPacket _ _

end Sys2Proof.Machine
end

