-- ==== Sys2Proof/Laws/Memory.lean ====
section
/-! SUPPORT. Laws/Memory.lean: the byte memory and the sparse tables: every operation keeps the canonical form, a read after a write gives the
value written, and a write leaves every other address and key alone. -/
namespace Sys2Proof.Machine

/-! ## Byte strings -/

theorem leBytes_length (n v : Nat) : (leBytes n v).length = n := by
  induction n generalizing v with
  | zero => rfl
  | succ n ih => simp [leBytes, ih]

theorem leNat_leBytes (n v : Nat) : leNat (leBytes n v) = v % 256 ^ n := by
  induction n generalizing v with
  | zero => simp [leBytes, leNat, Nat.mod_one]
  | succ n ih =>
    simp only [leBytes, leNat, ih, BitVec.toNat_ofNat]
    have e : (256 : Nat) ^ (n + 1) = 256 * 256 ^ n := by rw [Nat.pow_succ, Nat.mul_comm]
    have h8 : (2 : Nat) ^ 8 = 256 := rfl
    rw [e, h8, Nat.mod_mul]

theorem padTo_length {α : Type} (n : Nat) (d : α) (l : List α) : (padTo n d l).length = n := by
  simp only [padTo, List.length_take, List.length_append, List.length_replicate]
  omega

/-! ## Cells of a byte string -/

theorem cellsAt_range (a : Nat) (bs : List Byte) : ∀ c ∈ cellsAt a bs, a ≤ c.1 ∧ c.1 < a + bs.length ∧ c.2 ≠ 0#8 := by
  induction bs generalizing a with
  | nil => simp [cellsAt]
  | cons b r ih =>
    intro c hc
    simp only [cellsAt] at hc
    split at hc
    · have h := ih (a + 1) c hc
      simp only [List.length_cons]
      exact ⟨by omega, by omega, h.2.2⟩
    · rcases List.mem_cons.mp hc with rfl | hc
      · simp only [List.length_cons]
        exact ⟨Nat.le_refl _, by omega, by assumption⟩
      · have h := ih (a + 1) c hc
        simp only [List.length_cons]
        exact ⟨by omega, by omega, h.2.2⟩

theorem cellsAt_wf (a : Nat) (bs : List Byte) : Memory.wf (cellsAt a bs) := by
  refine ⟨?_, fun c hc => (cellsAt_range a bs c hc).2.2⟩
  induction bs generalizing a with
  | nil => simp [cellsAt]
  | cons b r ih =>
    simp only [cellsAt]
    split
    · exact ih (a + 1)
    · refine List.pairwise_cons.mpr ⟨fun c hc => ?_, ih (a + 1)⟩
      have h := cellsAt_range (a + 1) r c hc
      show a < c.1
      omega

/-! ## The canonical form is kept -/

theorem Memory.wf_nil : Memory.wf [] := ⟨List.Pairwise.nil, by simp⟩

theorem Memory.wf_filter {m : Memory} (h : m.wf) (f : Host.Cell → Bool) : Memory.wf (List.filter f m) :=
  ⟨h.1.filter f, fun c hc => h.2 c (List.mem_filter.mp hc).1⟩

theorem Memory.wf_write {m : Memory} (h : m.wf) (a : Nat) (bs : List Byte) : (m.write a bs).wf := by
  have h1 := Memory.wf_filter h (fun c => c.1 < a)
  have h2 := cellsAt_wf a bs
  have h3 := Memory.wf_filter h (fun c => a + bs.length ≤ c.1)
  refine ⟨?_, ?_⟩
  · refine List.pairwise_append.mpr ⟨List.pairwise_append.mpr ⟨h1.1, h2.1, ?_⟩, h3.1, ?_⟩
    · intro x hx y hy
      have hx' : x.1 < a := by simpa using (List.mem_filter.mp hx).2
      have := (cellsAt_range a bs y hy).1
      omega
    · intro x hx y hy
      have hy' : a + bs.length ≤ y.1 := by simpa using (List.mem_filter.mp hy).2
      rcases List.mem_append.mp hx with hx | hx
      · have hx' : x.1 < a := by simpa using (List.mem_filter.mp hx).2
        omega
      · have := (cellsAt_range a bs x hx).2.1
        omega
  · intro c hc
    rcases List.mem_append.mp hc with hc | hc
    · rcases List.mem_append.mp hc with hc | hc
      · exact h1.2 c hc
      · exact h2.2 c hc
    · exact h3.2 c hc

theorem Memory.wf_zero {m : Memory} (h : m.wf) (a n : Nat) : (m.zero a n).wf := Memory.wf_filter h _

theorem Memory.wf_slice {m : Memory} (h : m.wf) (a n : Nat) : Memory.wf (m.slice a n) := Memory.wf_filter h _

theorem Memory.wf_copyRange {m : Memory} (h : m.wf) (src dst n : Nat) : (m.copyRange src dst n).wf := Memory.wf_write h _ _

/-- The memories of the state after reset are canonical. -/
theorem State.reset_wf : Memory.wf State.reset.mem.mem ∧ ∀ p : Nat, Memory.wf (State.reset.parts[p]?.getD .atReset).sp := by
  refine ⟨Memory.wf_nil, fun p => ?_⟩
  by_cases h : p < 16
  · have : State.reset.parts[p]? = some .atReset := by
      simp [State.reset, h]
    rw [this]
    exact Memory.wf_nil
  · have : State.reset.parts[p]? = none := by simpa using Nat.le_of_not_lt h
    rw [this]
    exact Memory.wf_nil

/-! ## Reading what was written -/

theorem cellsAt_find (a : Nat) (bs : List Byte) (k : Nat) :
    ((cellsAt a bs).find? (fun c => c.1 == a + k)) = if bs[k]?.getD 0#8 = 0#8 then none else some (a + k, bs[k]?.getD 0#8) := by
  induction bs generalizing a k with
  | nil => simp [cellsAt]
  | cons b r ih =>
    simp only [cellsAt]
    cases k with
    | zero =>
      by_cases hb : b = 0#8
      · rw [if_pos hb]
        simp only [List.getElem?_cons_zero, Option.getD_some, hb, if_true]
        refine List.find?_eq_none.mpr fun c hc => ?_
        have := (cellsAt_range (a + 1) r c hc).1
        simp only [Nat.add_zero, beq_iff_eq]
        omega
      · rw [if_neg hb]
        simp [hb]
    | succ k =>
      have e : a + (k + 1) = a + 1 + k := by omega
      by_cases hb : b = 0#8
      · rw [if_pos hb, e, ih (a + 1) k]
        simp
      · rw [if_neg hb, e, List.find?_cons_of_neg (by simp; omega), ih (a + 1) k]
        simp

theorem find_filter {f g : Host.Cell → Bool} (m : Memory) (h : ∀ c, g c = true → f c = true) :
    (List.filter f m).find? g = List.find? g m := by
  induction m with
  | nil => rfl
  | cons c r ih =>
    by_cases hf : f c = true
    · rw [List.filter_cons_of_pos hf]
      by_cases hg : g c = true
      · simp [hg]
      · simp [hg, ih]
    · rw [List.filter_cons_of_neg hf]
      have hg : ¬ g c = true := fun hg => hf (h c hg)
      simp [hg, ih]

theorem find_filter_none {f g : Host.Cell → Bool} (m : Memory) (h : ∀ c, g c = true → f c = false) :
    (List.filter f m).find? g = none := by
  refine List.find?_eq_none.mpr fun c hc hg => ?_
  have := (List.mem_filter.mp hc).2
  simp [h c hg] at this

/-- A byte of the string written is read back. -/
theorem Memory.read_write_in (m : Memory) (a : Nat) (bs : List Byte) (k : Nat) (hk : k < bs.length) :
    (m.write a bs).read (a + k) = bs[k] := by
  have h1 : (List.filter (fun c : Host.Cell => decide (c.1 < a)) m).find? (fun c => c.1 == a + k) = none :=
    find_filter_none m (by intro c hc; simp at hc ⊢; omega)
  have h3 : (List.filter (fun c : Host.Cell => decide (a + bs.length ≤ c.1)) m).find? (fun c => c.1 == a + k) = none :=
    find_filter_none m (by intro c hc; simp at hc ⊢; omega)
  simp only [Memory.read, Memory.write, List.find?_append, h1, h3, Option.none_or, Option.or_none, cellsAt_find,
    List.getElem?_eq_getElem hk, Option.getD_some]
  by_cases hb : bs[k] = 0#8
  · simp [hb]
  · simp [hb]

/-- A byte outside the string written stays as it was. -/
theorem Memory.read_write_out (m : Memory) (a : Nat) (bs : List Byte) (x : Nat) (hx : x < a ∨ a + bs.length ≤ x) :
    (m.write a bs).read x = m.read x := by
  have h2 : (cellsAt a bs).find? (fun c => c.1 == x) = none := by
    refine List.find?_eq_none.mpr fun c hc => ?_
    have := cellsAt_range a bs c hc
    simp only [beq_iff_eq]
    omega
  simp only [Memory.read, Memory.write, List.find?_append, h2, Option.or_none]
  rcases hx with hx | hx
  · have h1 : (List.filter (fun c : Host.Cell => decide (c.1 < a)) m).find? (fun c => c.1 == x) = List.find? (fun c => c.1 == x) m :=
      find_filter m (by intro c hc; simp at hc ⊢; omega)
    have h3 : (List.filter (fun c : Host.Cell => decide (a + bs.length ≤ c.1)) m).find? (fun c => c.1 == x) = none :=
      find_filter_none m (by intro c hc; simp at hc ⊢; omega)
    rw [h1, h3]
    simp
  · have h1 : (List.filter (fun c : Host.Cell => decide (c.1 < a)) m).find? (fun c => c.1 == x) = none :=
      find_filter_none m (by intro c hc; simp at hc ⊢; omega)
    have h3 : (List.filter (fun c : Host.Cell => decide (a + bs.length ≤ c.1)) m).find? (fun c => c.1 == x) = List.find? (fun c => c.1 == x) m :=
      find_filter m (by intro c hc; simp at hc ⊢; omega)
    rw [h1, h3]
    simp

/-- A range set to zero reads as zero, and every other byte stays. -/
theorem Memory.read_zero (m : Memory) (a n x : Nat) : (m.zero a n).read x = if a ≤ x ∧ x < a + n then 0#8 else m.read x := by
  simp only [Memory.read, Memory.zero]
  split_ifs with h
  · rw [find_filter_none m (by intro c hc; simp at hc ⊢; omega)]
  · rw [find_filter m (by intro c hc; simp at hc ⊢; omega)]

/-! ## Ranges -/

theorem bytesFrom_length (n a : Nat) (l : List Host.Cell) : (bytesFrom n a l).length = n := by
  induction n generalizing a l with
  | zero => rfl
  | succ n ih =>
    cases l with
    | nil => simp [bytesFrom, ih]
    | cons c r => simp only [bytesFrom]; split <;> simp [ih]

@[simp] theorem Memory.readN_length (m : Memory) (a n : Nat) : (m.readN a n).length = n := bytesFrom_length n a _

theorem bytesFrom_get (n a : Nat) (l : List Host.Cell) (h : l.Pairwise fun x y => x.1 < y.1) (lo : ∀ c ∈ l, a ≤ c.1) (k : Nat)
    (hk : k < n) : (bytesFrom n a l)[k]? = some (Memory.read l (a + k)) := by
  induction n generalizing a l k with
  | zero => omega
  | succ n ih =>
    cases l with
    | nil =>
      cases k with
      | zero => simp [bytesFrom, Memory.read]
      | succ k =>
        have := ih (a + 1) [] List.Pairwise.nil (by simp) k (by omega)
        simp only [bytesFrom, List.getElem?_cons_succ, this]
        simp [Memory.read]
    | cons c r =>
      have hp := List.pairwise_cons.mp h
      have hc := lo c List.mem_cons_self
      simp only [bytesFrom]
      split
      · rename_i e
        cases k with
        | zero => simp [Memory.read, e]
        | succ k =>
          have hr : ∀ x ∈ r, a + 1 ≤ x.1 := fun x hx => by have := hp.1 x hx; omega
          have := ih (a + 1) r hp.2 hr k (by omega)
          have ek : a + 1 + k = a + (k + 1) := by omega
          simp only [List.getElem?_cons_succ, this, Memory.read]
          rw [List.find?_cons_of_neg (by simp; omega), ek]
      · rename_i e
        cases k with
        | zero =>
          have hn : List.find? (fun x : Host.Cell => x.1 == a + 0) (c :: r) = none := by
            refine List.find?_eq_none.mpr fun x hx => ?_
            rcases List.mem_cons.mp hx with rfl | hx
            · simpa using e
            · have := hp.1 x hx
              simp only [beq_iff_eq]
              omega
          simp only [Nat.add_zero] at hn ⊢
          simp only [List.getElem?_cons_zero, Memory.read, hn]
        | succ k =>
          have hr : ∀ x ∈ c :: r, a + 1 ≤ x.1 := by
            intro x hx
            rcases List.mem_cons.mp hx with rfl | hx
            · omega
            · have := hp.1 x hx
              omega
          have := ih (a + 1) (c :: r) h hr k (by omega)
          have ek : a + 1 + k = a + (k + 1) := by omega
          simp only [List.getElem?_cons_succ, this, Memory.read, ek]

/-- The bytes of a range of a canonical memory are its bytes one by one. -/
theorem Memory.readN_get {m : Memory} (h : m.wf) (a n k : Nat) (hk : k < n) : (m.readN a n)[k]? = some (m.read (a + k)) := by
  have hs := Memory.wf_slice h a n
  have lo : ∀ c ∈ m.slice a n, a ≤ c.1 := by
    intro c hc
    have := (List.mem_filter.mp hc).2
    simp at this
    omega
  rw [Memory.readN, bytesFrom_get n a _ hs.1 lo k hk]
  simp only [Memory.read, Memory.slice]
  rw [find_filter m (by intro c hc; simp at hc ⊢; omega)]

/-- A byte string written is read back whole. -/
theorem Memory.readN_write {m : Memory} (h : m.wf) (a : Nat) (bs : List Byte) : (m.write a bs).readN a bs.length = bs := by
  refine List.ext_getElem? fun k => ?_
  by_cases hk : k < bs.length
  · rw [Memory.readN_get (Memory.wf_write h a bs) a _ k hk, Memory.read_write_in m a bs k hk, List.getElem?_eq_getElem hk]
  · rw [List.getElem?_eq_none (by simpa using hk), List.getElem?_eq_none (by simpa using hk)]

/-! ## Sparse tables -/

theorem SMap.find_insert_self {α : Type} (m : SMap α) (k : Nat) (v : α) : (SMap.insert m k v).find k = some v := by
  have h : List.find? (fun c : Nat × α => c.1 == k) (List.filter (fun c => decide (c.1 < k)) m) = none := by
    refine List.find?_eq_none.mpr fun c hc => ?_
    have := (List.mem_filter.mp hc).2
    simp at this ⊢
    omega
  simp [SMap.find, SMap.insert, List.find?_append, h]

theorem SMap.find_filter {α : Type} (m : SMap α) (j : Nat) (f : Nat × α → Bool) (h : ∀ c, c.1 = j → f c = true) :
    List.find? (fun c : Nat × α => c.1 == j) (List.filter f m) = List.find? (fun c => c.1 == j) m := by
  induction m with
  | nil => rfl
  | cons c r ih =>
    by_cases hj : c.1 = j
    · rw [List.filter_cons_of_pos (h c hj)]
      simp [hj]
    · by_cases hf : f c = true
      · rw [List.filter_cons_of_pos hf]
        simp [hj, ih]
      · rw [List.filter_cons_of_neg hf]
        simp [hj, ih]

theorem SMap.find_insert_ne {α : Type} (m : SMap α) (k j : Nat) (v : α) (h : j ≠ k) : (SMap.insert m k v).find j = m.find j := by
  simp only [SMap.find, SMap.insert, List.find?_append]
  rcases Nat.lt_or_gt_of_ne h with hj | hj
  · have e : List.find? (fun c : Nat × α => c.1 == j) ((k, v) :: List.filter (fun c => decide (k < c.1)) m) = none := by
      refine List.find?_eq_none.mpr fun c hc => ?_
      rcases List.mem_cons.mp hc with rfl | hc
      · simp; omega
      · have := (List.mem_filter.mp hc).2
        simp at this ⊢
        omega
    rw [e, SMap.find_filter m j _ (by intro c hc; simp; omega)]
    simp
  · have e : List.find? (fun c : Nat × α => c.1 == j) (List.filter (fun c => decide (c.1 < k)) m) = none := by
      refine List.find?_eq_none.mpr fun c hc => ?_
      have := (List.mem_filter.mp hc).2
      simp at this ⊢
      omega
    rw [e, List.find?_cons_of_neg (by simp; omega), SMap.find_filter m j _ (by intro c hc; simp; omega)]
    simp

theorem SMap.find_erase_self {α : Type} (m : SMap α) (k : Nat) : (SMap.erase m k).find k = none := by
  have h : List.find? (fun c : Nat × α => c.1 == k) (SMap.erase m k) = none := by
    refine List.find?_eq_none.mpr fun c hc => ?_
    have := (List.mem_filter.mp hc).2
    simpa using this
  simp [SMap.find, h]

theorem SMap.find_erase_ne {α : Type} (m : SMap α) (k j : Nat) (h : j ≠ k) : (SMap.erase m k).find j = m.find j := by
  simp only [SMap.find, SMap.erase]
  rw [SMap.find_filter m j _ (by intro c hc; simp; omega)]

theorem SMap.get_set_self {α : Type} [DecidableEq α] (m : SMap α) (k : Nat) (v d : α) : SMap.get (SMap.set m k v d) k d = v := by
  simp only [SMap.get, SMap.set]
  split
  · rename_i e
    rw [SMap.find_erase_self, e]
    rfl
  · rw [SMap.find_insert_self]
    rfl

theorem SMap.get_set_ne {α : Type} [DecidableEq α] (m : SMap α) (k j : Nat) (v d : α) (h : j ≠ k) :
    SMap.get (SMap.set m k v d) j d = SMap.get m j d := by
  simp only [SMap.get, SMap.set]
  split
  · rw [SMap.find_erase_ne m k j h]
  · rw [SMap.find_insert_ne m k j v h]

/-- An insertion keeps the keys strictly rising. -/
theorem SMap.wf_insert {α : Type} {m : SMap α} (h : SMap.wf m) (k : Nat) (v : α) : SMap.wf (SMap.insert m k v) := by
  refine List.pairwise_append.mpr ⟨List.Pairwise.filter _ h, List.pairwise_cons.mpr ⟨?_, List.Pairwise.filter _ h⟩, ?_⟩
  · intro c hc
    simpa using (List.mem_filter.mp hc).2
  · intro x hx y hy
    have hx' : x.1 < k := by simpa using (List.mem_filter.mp hx).2
    rcases List.mem_cons.mp hy with rfl | hy
    · exact hx'
    · have hy' : k < y.1 := by simpa using (List.mem_filter.mp hy).2
      show x.1 < y.1
      omega

theorem SMap.wf_erase {α : Type} {m : SMap α} (h : SMap.wf m) (k : Nat) : SMap.wf (SMap.erase m k) := List.Pairwise.filter _ h

end Sys2Proof.Machine
end

