-- ==== Sys2Proof/Tests/Examples.lean ====
section
/-! SUPPORT. Tests/Examples.lean: small examples that the tests share: a plate of one module and one instance, command headers and operands,
packets, messages, and states in which the module serves. -/
namespace Sys2Proof.Tests
open Sys2Proof.Machine

/-! ## Commands -/

/-- A command header for an engine: no wait, no signal, TIMEOUT 100 µs, class 0, no formats. -/
def hdr (engine : BitVec 8) : CmdHdr :=
  { waitEn := false, waitSem := 0#13, waitCount := 0#16, sigEn := false, sigSem := 0#13, sigInc := 0#16, timeout := 100#24,
    operator := 1#16, layer := 2#16, cls := 0#4, trace := false, rowrel := false, engine := engine, srcfmt := 0#4, dstfmt := 0#4 }

/-- An issue of PROGRAM 0 of instance 0 on partition 0. -/
def iss (o : Owner) (engine : BitVec 8) : Issue := ⟨0#4, o, 0#16, 0#2, hdr engine⟩

/-- Matrix operands of one 8 × 8 × 8 product, gang 0, accumulating. -/
def matOps : MatOps := { src := 0#32, aux := 0#32, m := 8#16, k := 8#16, n := 8#16, gang := 0#4, acc := 0#2, accBase := 0#10 }

/-- Vector operands of one window: A at 0, B at 4,096, C at 8,192, DST at 16,384. -/
def vecOps : VecOps :=
  { mod := 0#8, srcA := 0#32, srcB := 0x1000#32, srcC := 0x2000#32, dst := 0x4000#32, sumslot := 0#4, imm := 0#32, count := 1#16 }

/-- DE operands of one granule. -/
def deOps : DeOps :=
  { addrA := 0#56, addrB := 0#56, len := 128#32, rowFirst := 0#16, rowCount := 0#16, headFirst := 0#8, headCount := 0#8, subop := 0#8,
    value := 0#64 }

/-- Control operands of nothing in particular. -/
def ctlOps : CtlOps :=
  { target := 0#16, sumcl := 0#4, sumslot := 0#4, cond := 0#4, kind := 0#4, imm := 0#32, body := 1#16, stagemask := 0#8, phase := 0#4,
    stride := 0#32 }

/-! ## Command words, from the tables of spec/03, spec/04, spec/06, spec/08 -/

/-- The header of a command word and its OPCODE. -/
def hdrNat (h : CmdHdr) (opcode : Nat) : Nat :=
  opcode + h.dstfmt.toNat * 2 ^ 8 + h.srcfmt.toNat * 2 ^ 12 + h.engine.toNat * 2 ^ 16 + h.rowrel.toNat * 2 ^ 26 + h.trace.toNat * 2 ^ 27 +
    h.cls.toNat * 2 ^ 28 + h.layer.toNat * 2 ^ 32 + h.operator.toNat * 2 ^ 48 + h.timeout.toNat * 2 ^ 104 + h.sigInc.toNat * 2 ^ 128 +
    h.sigSem.toNat * 2 ^ 146 + h.sigEn.toNat * 2 ^ 159 + h.waitCount.toNat * 2 ^ 160 + h.waitSem.toNat * 2 ^ 178 + h.waitEn.toNat * 2 ^ 191

/-- The operands of the DE and the die cache. -/
def deNat (o : DeOps) : Nat :=
  o.value.toNat * 2 ^ 192 + o.subop.toNat * 2 ^ 296 + o.headCount.toNat * 2 ^ 304 + o.headFirst.toNat * 2 ^ 312 + o.rowCount.toNat * 2 ^ 320 +
    o.rowFirst.toNat * 2 ^ 336 + o.len.toNat * 2 ^ 352 + o.addrB.toNat * 2 ^ 384 + o.addrA.toNat * 2 ^ 448

/-- The word of a command. -/
def wordOf (h : CmdHdr) (c : PlateCmd) : BitVec 512 :=
  BitVec.ofNat 512 <| match c with
  | .nop => hdrNat h 1
  | .mat k o => hdrNat h k + o.accBase.toNat * 2 ^ 384 + o.acc.toNat * 2 ^ 394 + o.gang.toNat * 2 ^ 396 + o.n.toNat * 2 ^ 400 + o.k.toNat * 2 ^ 416 +
      o.m.toNat * 2 ^ 432 + o.aux.toNat * 2 ^ 448 + o.src.toNat * 2 ^ 480
  | .vec op o => hdrNat h 0x20 + o.count.toNat * 2 ^ 304 + o.imm.toNat * 2 ^ 320 + o.sumslot.toNat * 2 ^ 360 + o.dst.toNat * 2 ^ 368 +
      o.srcC.toNat * 2 ^ 400 + o.srcB.toNat * 2 ^ 432 + o.srcA.toNat * 2 ^ 464 + o.mod.toNat * 2 ^ 496 + op.code * 2 ^ 504
  | .de k o => hdrNat h k + deNat o
  | .cinv o => hdrNat h 0x38 + deNat o
  | .ctl k o => hdrNat h k + o.stride.toNat * 2 ^ 384 + o.phase.toNat * 2 ^ 420 + o.stagemask.toNat * 2 ^ 424 + o.body.toNat * 2 ^ 432 +
      o.imm.toNat * 2 ^ 448 + o.kind.toNat * 2 ^ 480 + o.cond.toNat * 2 ^ 484 + o.sumslot.toNat * 2 ^ 488 + o.sumcl.toNat * 2 ^ 492 +
      o.target.toNat * 2 ^ 496

/-! ## The plate -/

def domain : DomainRec :=
  { epoch := 0#64, period := 20000#32, proofWin := 0#32, slack := 0#32, slotLen := 8#16, horizon := 4#8, streamLimit := 1000#24,
    dirBlocksM1 := 0#32, manager := 0#10, deputy := 0#10, sizeM1 := 0#10, powerLimit := 950#16, startTimeout := 600#16, ptpDomain := 0#8,
    ptpTransport := 1#2, gmCount := 1#4, gms := [7#64], rsvd := false }

def setup : Setup :=
  { operator := 1#512, tenant := 1#512, plateSigner := 1#512, members := 0#512, notAfter := 0#64, ceiling := 0#16, obsLevel := 3#2,
    linkEnc := false, epoch := 1#16, clients := 0#16, slots := 0#16, changes := 0#8, rsvd := false }

def cost : CostEntry := ⟨0#32, 0#32, 0#32, 0#32⟩

def kvDesc : KvDesc :=
  { cb2 := 0#56, cb1 := 0#56, cb05 := 0#56, layers := 1#16, kvHeads := 1#8, pagesMax := 1#16, walkSlots := 1#16, selTop := 0#8, selRecent := 0#8,
    pgMin := 6#4, pgMax := 6#4, repsLog2 := 0#4, expFmt := 1#4, rates := 0#3, upkeepPages := 0#16, ringSize := 0#8, ringIndex := 0#8,
    rowStride := 0#32, rsvd := false }

def plate : Plate :=
  { header := ⟨0#32, 0#16, 0#16, 0#32, 0#32, 1#64, 0#16, false⟩
    sections := []
    domain := domain
    modules := [⟨0#512, 0#10, false, 0#2, false⟩]
    protection := ⟨setup, [], [], []⟩
    firmware := none
    hostports := [{ ipv6 := 0#128, gateway6 := 0#128, ringBase := 0#56, pfx6 := 0#8, ipv4 := 0x0A000001#32, gateway4 := 0#32, pfx4 := 24#8,
                    astPort := 9000#16, vlan := 0#12, echo := true, side := false, module := 0#10, rsvd := false }]
    objects := []
    data := []
    placement := []
    interleave := [⟨0#10, 0#5, [⟨0#32, 64#32, 0#32, 1#16, false⟩], false⟩]
    scratch := []
    instances := [⟨0#16, 0#10, 0#10, 0#10, 16#13, false⟩]
    programs := []
    kv := []
    slotplan := []
    classes := [{ promptMax := 1024#32, outputMax := 1024#32, inst := 0#16, cadenceMin := 1#8, cadenceMax := 8#8, graceMin := 0#8, recovery := 0#8,
                  draftsMax := 0#8, rate := 0#2, chunkMin := 64#16, chunkMax := 64#16, rsvd := false }]
    admission := ⟨0#16, 0#16, 0#16, 85#8, 0#8, false⟩
    admRecs := [⟨cost, 8#32, 0#32, 0#16, [], false⟩]
    symbols := []
    validate := []
    proof := { storeKey := 0#512, storeIp6 := 0#128, storeIp4 := 0#32, storePort := 0#16, flashEvery := 0#16, storeEvery := 0#16,
               restoreWait := 0#16, landingMib := 0#16, flashGib := 0#16, rsvd := false }
    tuning := none
    trace := none
    signer := 0#20736
    sig := 0#37016 }

/-! ## States -/

/-- A module in the middle of stroke 5 (FT 110 ms), serving with the plate in effect, the manager of its domain. -/
def serving : State :=
  { State.reset with
    boot := { BootState.reset with plate := some plate, standing := .serving, step := 12, code := 0#8 }
    sec := { SecState.reset with setup := setup, counter := 1#64 }
    time := { TimeState.reset with ftSet := true, ft := 110000000#64, mono := 500000000#64, master := .locked, worker := .aligned, stroke := 5#48,
                                   gm := some 7#64 }
    pwr := { PwrState.reset with rails := true, good := true }
    trans := { TransState.reset with accepting := true, linkUp := true } }

/-- A batch row of stage 1 (prefill) for handle 1. -/
def row (stage : BitVec 8) : BatchRow :=
  { seed := 0#64, prompt := 0#56, dueStroke := 9#48, staging := 0#56, cclass := 0#8, pageCount := 0#32, staged := 0#16, ring := 0#15,
    pageList := 0#56, drafts := 0#8, outIndex := 0#32, chunk := 64#16, stage := stage, pageLog2 := 6#4, kvRate := 0#2, ringMode := false,
    handle := 1#32, position := 0#32 }

/-- The module runs work stroke 5 with one decode row of instance 0; its owners stand at their streams' first commands. -/
def working : State :=
  let part : Part := { Part.atReset with cc := { OwnerState.reset with serve := { StreamPos.reset with prog := 0#2, headAt := some 0#64 } } }
  { serving with
    su := { SuState.reset with work := 5#48, begun := true, doneWork := 4#48, tables := [⟨5#48, 0#16, false, [row 2#8]⟩] }
    parts := Vector.replicate 16 part }

/-- A command at the head of its stream: stream 0 of its owner on its partition is that one word, and the die cache holds its line. -/
def headed (s : State) (i : Issue) (c : PlateCmd) : State :=
  let w := wordOf i.hdr c
  let st : StreamRec := ⟨i.inst, i.prog, 0#10, i.part, BitVec.ofNat 3 (ownerNum i.owner), 0#56, [w], false⟩
  let d : Granule := BitVec.ofNat 1024 w.toNat
  let t : State := { s with boot := { s.boot with plate := s.boot.plate.map fun pl => { pl with programs := [st] } } }
  t.modPart i.part.toNat fun x => { x with dcache := { x.dcache with lines := [(0, d)] } }

/-- `working` with a command at the head of its stream. -/
def headed0 (i : Issue) (c : PlateCmd) : State := headed working i c

/-- Partition 0 changed. -/
def on0 (s : State) (f : Part → Part) : State := s.modPart 0 f

/-- A command of a stream as issued. -/
def cmd (i : Issue) (k : CmdKind) (a : CmdArgs) : RunCmd := working.runCmd i k a

/-- The lead module's only session: handle 1 on endpoint 0, a prompt of 64 tokens, all received, first output at stroke 7. -/
def session : Session :=
  { handle := 1#32, client := 0#512, port := 0#10, ep := 0#8,
    terms := { seed := 0#64, prompt := 64#32, output := 16#32, ttft := 8#16, cadence := 1#8, grace := 0#8, cclass := 0#8 },
    inst := 0#16, admAt := 4#48, first := 7#48, chunk := 64#16, pageLog2 := 6#4, frames := [], area := 0#32, areaLen := 0, order := 0, rcvd := 64,
    commitEnd := 0, pageCount := 0, outNext := 0, sendNext := 0, held := [], ring := [], breaches := 0, shifts := 0, lastRow := 0#48,
    marks := [], proofRec := none, history := [], resumes := [], replay := none, suspended := none, incomplete := [], held2 := false,
    endAt := none, closing := none, valid := none }

/-- A canonical state: what the checker below accepts. -/
def canonicalB (s : State) : Bool :=
  decide (Memory.wf s.mem.mem) && (List.range 16).all fun p =>
    decide (Memory.wf (s.part p).sp) && (List.range 4).all fun k => ((s.part p).cluster k).ve.pass.all fun l => l.length = 1024

theorem canonical_of (s : State) (h : canonicalB s = true) : s.canonical := by
  simp only [canonicalB, Bool.and_eq_true, decide_eq_true_eq, List.all_eq_true, List.mem_range, Option.all_eq_true] at h
  refine ⟨h.1, fun p => ?_⟩
  by_cases hp : p < 16
  · refine ⟨(h.2 p hp).1, fun k => ?_⟩
    by_cases hk : k < 4
    · exact fun l e => (h.2 p hp).2 k hk l e
    · have : (s.part p).cluster k = .reset := by
        unfold Part.cluster
        rw [Vector.getElem?_eq_none (by omega)]
        rfl
      rw [this]
      intro l e
      cases e
  · have : s.part p = .atReset := by
      unfold State.part
      rw [Vector.getElem?_eq_none (by omega)]
      rfl
    rw [this]
    refine ⟨⟨List.Pairwise.nil, fun _ h => by cases h⟩, fun k l e => ?_⟩
    have : (Part.atReset.cluster k).ve.pass = none := by
      unfold Part.cluster Part.atReset
      simp only [Vector.getElem?_replicate]
      split <;> rfl
    rw [this] at e
    cases e

end Sys2Proof.Tests
end

