-- ==== Sys2Proof/Tests/Fabric.lean ====
section
/-! SUPPORT. Tests/Fabric.lean: witnesses for the hypotheses of the statements on the stacks, requests and packets, links, the directory and migration.
Each theorem names its statement and shows a state and operands that meet the hypotheses of the clause it stands for. -/
namespace Sys2Proof.Tests
open Sys2Proof.Machine
set_option Elab.async false

/-! ## Bursts, subchannels, routes -/

theorem wit_StoredBurstsReadBack : (List.replicate 32 (5#8 : Byte)).length = 32 ∧ onLane 0 1 ∧ onLane 11 0 := by
  refine ⟨rfl, fun p h => ?_, fun p h => ?_⟩
  · have : p = 0 := by simpa [Nat.testBit_one_eq_true_iff_self_eq_zero] using h
    subst this; decide
  · simp at h

theorem wit_SubchannelsHaveOneOwner : 575 < 48 * Variant.a16.stacks ∧ 15 < Variant.a16.parts ∧ 35 < Variant.a16.subs := by decide

/-- A spread of 64 frames over two partitions; the last frame and granule. -/
theorem wit_GranulePlacesStayApart : let sp : Spread := ⟨0#32, 64#32, 0#32, 0x8001#16, false⟩
    0 < 36 ∧ sp.members ≠ [] ∧ sp.holds 63 = true ∧ 16383 < 16384 ∧ sp.place 36 63 16383 = sp.place 36 63 16383 ∧
    2 < 36 ∧ [4, 35].Nodup ∧ [4, 35].length = 2 ∧ ∀ j ∈ [4, 35], j < 36 := by decide +kernel

theorem wit_CablesAndRoutesReachEveryModule : domainSize 8 ∧ domainSize 512 ∧ 511 < 512 ∧ 14 < 15 ∧ (neighbour 512 511 13).isSome = true ∧
    (neighbour 8 7 0).isSome = true := ⟨.inl (by decide), .inr (by decide), by decide, by decide, by decide +kernel, by decide +kernel⟩

/-! ## A module of eight -/

/-- Ports 0 to 6 lead to the other members of the group and are up. -/
def upPort : PortState :=
  { PortState.reset with phase := .up, width := 4, lanes := 0xF#4, granted := [(vcKey 1 0, 64), (vcKey 1 1, 64), (vcKey 2 1, 64)] }

/-- Blocks 1 to 4 are placed here at frames 10 to 13, the directory's own block 8 at frame 0; its copy gives block 1 at its frame, block 2 at module
1, block 3 fenced. -/
def homePlate : Plate :=
  { plate with
    domain := { domain with sizeM1 := 7#10, dirBlocksM1 := 15#32 }
    placement := [⟨1#32, 4#32, 0#10, 0#10, 10#20, 4#4, false, 0#16, false⟩, ⟨8#32, 1#32, 0#10, 0#10, 0#20, 6#4, true, 0xFFFF#16, false⟩] }

def fabric : State :=
  { working with
    boot := { working.boot with plate := some homePlate }
    fab := { working.fab with ports := (Vector.replicate 32 upPort).setIfInBounds 14 PortState.reset
                              links := [(0, ⟨1#2, 0#2, true⟩), (32, ⟨1#2, 0#2, true⟩)] }
    mem := { working.mem with
      mem := Memory.write (Memory.write [] 4 (leBytes 4 (dirMake false 0#10 10#20).toNat)) 8 (leBytes 4 (dirMake false 1#10 5#20).toNat ++ leBytes 4 (dirMake false 0#10 12#20).toNat)
      fenced := [3] } }

/-- A request from partition 2 of module 1 to this module. -/
def req (type : BitVec 8) (addr : GAddr) (arg : BitVec 120) (payload : List Granule) : Packet :=
  { type := type, vc := 1#2, hops := 1#3, cls := 0#2, dst := 0#10, src := 1#10, spart := 2#4, dpart := 0#4, gen := 0#12, txn := 1#16, status := 0#4,
    addr := addr, arg := arg, payload := payload }

def rdReq : Packet := req 1#8 0x200000#56 (BitVec.ofNat 120 (2 ^ 116)) []
def wrReq (block : Nat) : Packet := req 2#8 (BitVec.ofNat 56 (block * 2097152)) 0#120 [1#1024]
def mwrReq : Packet := req 3#8 0x200000#56 0#120 [1#1024, 1#1024]
def atomReq : Packet := req 4#8 0x200008#56 (BitVec.ofNat 120 (2 * 2 ^ 112 + 7 * 2 ^ 48)) []

/-- A packet that comes in LSEQ order on port 0, and one that does not. -/
def inSeq : Arrival := ⟨0#5, upPort.rxSeq + 1#12⟩
def outSeq : Arrival := ⟨0#5, upPort.rxSeq + 2#12⟩

theorem wit_HomeServesOrRefuses_home : fabric.canonical ∧ fabric.inOrder inSeq = true ∧ fabric.atHome rdReq 10 ∧ fabric.atHome (wrReq 1) 10 ∧ fabric.atHome mwrReq 10 ∧
    fabric.atHome atomReq 10 ∧ rdReq.type = 1#8 ∧ (wrReq 1).type = 2#8 ∧ mwrReq.type = 3#8 ∧ mwrReq.payload = [1#1024, 1#1024] ∧
    atomReq.type = 4#8 ∧ atomOf atomReq.subop = some .add64 :=
  ⟨canonical_of _ (by decide +kernel), by decide +kernel, by unfold State.atHome; decide +kernel, by unfold State.atHome; decide +kernel,
    by unfold State.atHome; decide +kernel, by unfold State.atHome; decide +kernel, by decide +kernel⟩

theorem wit_HomeServesOrRefuses_refused : fabric.inOrder outSeq = false ∧
    ((wrReq 1).dst = fabric.me ∧ fabric.boot.standing ≠ .detached ∧ fabric.boot.standing ≠ .heldVisible ∧ gaSpace (wrReq 1).addr = 0 ∧
      (wrReq 1).type ≠ 5#8) ∧
    (gaLayoutOk (req 2#8 0x20000000000000#56 0#120 [1#1024]).addr = false ∧ (req 2#8 0x200001#56 0#120 [1#1024]).memOk = false) ∧
    (gaLayoutOk (wrReq 2).addr = true ∧ (wrReq 2).memOk = true ∧ fabric.useOf 2 ≠ 6 ∧ fabric.isCopyWrite (wrReq 2) = false ∧
      fabric.homeOf 2 = some (1#10, 5) ∧ (1#10 : BitVec 10) ≠ fabric.me) ∧
    (fabric.homeOf 3 = some (fabric.me, 12) ∧ fabric.switching 3 = false ∧ fabric.blockHeld 3 12 = false ∧ 3 ∈ fabric.mem.fenced) ∧
    { wrReq 1 with dst := 3#10 }.dst ≠ fabric.me ∧
    ({ fabric with boot := { fabric.boot with standing := .detached } }).boot.standing = .detached ∧
    ({ fabric with boot := { fabric.boot with standing := .heldVisible } }).boot.standing = .heldVisible := by decide +kernel

/-- A SIG for semaphore 3 of partition 0; a partition with 256 parked signals answers BUSY to a signal of a later stroke. -/
def sigReq (stroke : Nat) : Packet := req 5#8 (BitVec.ofNat 56 (2 * 2 ^ 54 + 3 * 8)) (BitVec.ofNat 120 (stroke * 2 ^ 72 + 2 ^ 56)) []
def crowded : State := on0 fabric fun x => { x with early := List.replicate 256 ⟨3#13, 6#48, 1#16⟩ }
/-- The DE of partition 0 waits for the answer to transaction 1. -/
def asked : DeReq := ⟨{ wrReq 2 with src := 0#10, dst := 1#10 }, 0, .write, 0, some 0⟩
def answer (gen : BitVec 12) : Packet := { req 8#8 0x400000#56 0#120 [] with gen := gen }
def deWaits : State := on0 fabric fun x => { x with de := { x.de with inflight := [asked] } }
/-- The old home of block 2, which migrates to module 1. -/
def copies : State :=
  { fabric with mem := { fabric.mem with migs := [{ block := 2, oldMod := 0#10, oldFrame := 11#20, newMod := 1#10, newFrame := 5#20, frozenAt := 4#48,
                                                    moved := 0, run := 0#12, complete := false, switched := false, through := false, doomed := false }] } }
/-- A bank group of kind 1 holds everything: the plate allocates the scratchpad. -/
def planned : State :=
  { fabric with boot := { fabric.boot with plate := some { homePlate with scratch := [⟨0#10, 0#5, List.replicate 16 ⟨1#4, 0xF#4, 0#16, false⟩, [], false⟩] } } }
def planIn (type : BitVec 8) : Packet := req type (BitVec.ofNat 56 (2 ^ 54 + 0x100)) 0#120 [1#1024]

theorem wit_PacketsReachTheirUnit :
    ((sigReq 5).dst = fabric.me ∧ gaSpace (sigReq 5).addr = 2 ∧ gaLayoutOk (sigReq 5).addr = true ∧ gaModule (sigReq 5).addr = fabric.me.toNat ∧
      (sigReq 5).type = 5#8 ∧ gaPart (sigReq 5).addr < fabric.label.variant.parts ∧ (fabric.part 0).reset = none ∧ gaPart (sigReq 5).addr = 0 ∧
      (fabric.part 0).signal fabric.su.work (sigReq 5).signal ≠ .full ∧ (crowded.part 0).signal crowded.su.work (sigReq 6).signal = .full) ∧
    ((answer 0#12).dst = deWaits.me ∧ (deWaits.part 0).answered (answer 0#12) = some asked ∧ (answer 0#12).gen = (deWaits.part 0).de.fgen ∧
      deWaits.isCopyResp (answer 0#12) = false ∧ (answer 0#12).dpart.toNat < deWaits.label.variant.parts ∧ fabric.inOrder inSeq = true ∧
      copies.isCopyResp (answer 0#12) = true ∧ (answer 0#12).status = 0#4 ∧ (answer 1#12).gen ≠ (deWaits.part 0).de.fgen) ∧
    (∀ t ∈ [0x10#8, 0x11#8], (planIn t).dst = planned.me ∧ gaSpace (planIn t).addr = 1 ∧ gaLayoutOk (planIn t).addr = true ∧
      gaPart (planIn t).addr = 0 ∧ gaSpOff (planIn t).addr + 128 * (planIn t).payload.length ≤ spBytes ∧ (planIn t).addr.toNat % 128 = 0 ∧
      (planned.part 0).reset = none ∧ planned.kindZero 0 (gaSpOff (planIn t).addr) 128 = false) ∧ canonicalB planned = true := by decide +kernel

/-! ## Transit and waiting -/

/-- Planned transfer 0, one granule from this module's partition 0 to module 1 through logical port 0, ready once semaphore 3 is signalled. -/
def transfer : PlanRec :=
  { src := BitVec.ofNat 56 (2 ^ 54), dst := BitVec.ofNat 56 (2 ^ 54 + 2 ^ 44), total := 1#24, readySem := 3#13, readyCount := 1#16, sigEn := false,
    sigSem := 0#13, sigInc := 0#16, inst := 0#16, hops := 1#4, route := [⟨0#10, 0#5, 0#18, false⟩], rsvd := false }
def slots (count : BitVec 16) : State :=
  { (on0 fabric fun x => { x with sems := [(3, ⟨5#48, count⟩)] }) with
    boot := { fabric.boot with plate := some { homePlate with slotplan := [transfer] } }, mem := { fabric.mem with lates := [(0, 5#48)] } }
def through (vc : BitVec 2) (hops : BitVec 3) : Packet := { wrReq 1 with dst := 2#10, vc := vc, hops := hops }

theorem wit_TransitAndWaitingKeepTheMemories_transit :
    ((through 0#2 1#3).dst ≠ fabric.me ∧ fabric.route 1 2 = some 1 ∧ fabric.unreachable 2 = true ∧
      ({ fabric with fab := { fabric.fab with links := [(64, ⟨1#2, 0#2, true⟩)] } }).unreachable 2 = false ∧ fabric.time.worker ≠ .lost ∧
      (through 1#2 4#3).hops.toNat < 5 ∧ 5 ≤ (through 1#2 5#3).hops.toNat) ∧
    (∃ q ∈ [((1, through 1#2 1#3) : Nat × Packet)], q.1 / 4 = 0 ∧ q.2 = through 1#2 1#3) ∧
    ((slots 0#16).planRec 0 = some transfer ∧ (slots 0#16).planHop transfer = some (⟨0#10, 0#5, 0#18, false⟩, 0) ∧
      ((slots 0#16).slotsOn 0 && (slots 0#16).planReady transfer (slots 0#16).time.stroke) = false) ∧
    ((slots 1#16).planHop transfer = some (⟨0#10, 0#5, 0#18, false⟩, 0) ∧ (slots 1#16).slotsOn 0 = true ∧
      (slots 1#16).planReady transfer (slots 1#16).time.stroke = true ∧ (slots 1#16).mem.lates.find? (fun l => l.1 = 0) = some (0, 5#48) ∧
      (slots 1#16).planReady transfer 5#48 = true) := by decide +kernel

/-- The same transfer at the start of its slot. -/
def slotNow : State := { slots 1#16 with time := { fabric.time with ft := 100000000#64 } }
theorem wit_TransitAndWaitingKeepTheMemories_slot : slotNow.planRec 0 = some transfer ∧
    slotNow.planHop transfer = some (⟨0#10, 0#5, 0#18, false⟩, 0) ∧ slotNow.time.ftSet = true ∧ slotNow.slotsOn (0#5 : BitVec 5).toNat = true ∧
    slotNow.planReady transfer slotNow.time.stroke = true ∧ slotNow.time.ft.toNat ≤ slotNow.slotAt slotNow.time.stroke.toNat 0 + 40 ∧
    slotNow.slotAt slotNow.time.stroke.toNat 0 + 1000 * slotNow.domain.slotLen.toNat < 2 ^ 64 ∧
    ((slotNow.planPackets 0 transfer slotNow.time.stroke 0x10 0).map (slotNow.packetNs 0)).sum + 80 ≤ 1000 * slotNow.domain.slotLen.toNat ∧
    ((slotNow.port 0).replay.map fun r => slotNow.packetBytes r.pkt).sum +
      ((slotNow.planPackets 0 transfer slotNow.time.stroke 0x10 0).map slotNow.packetBytes).sum ≤ 65536 ∧
    slotNow.mem.lates.find? (fun l => l.1 = 0 && slotNow.planReady transfer l.2) = some (0, 5#48) ∧ 1 ≤ transfer.total.toNat := by decide +kernel
theorem wit_TransitAndWaitingKeepTheMemories_arrival : fabric.inOrder inSeq = true ∧ (through 0#2 1#3).dst ≠ fabric.me ∧
    fabric.planRec (xferArg (through 0#2 1#3).arg).plan.toNat = none ∧ (fabric.route 1 2 (some (fabric.logicalOf 0))).isSome = true ∧
    ({ fabric with fab := { fabric.fab with links := [] } } : State).unreachable 2 = true := by decide +kernel

/-- A write that found no entry of the wait store, for each reason. -/
def held (why : WaitWhy) : Waiting := ⟨some 0, wrReq 1, why, false, 0#64⟩

theorem wit_TransitAndWaitingKeepTheMemories_wait : ∀ why ∈ [WaitWhy.freezeFull, .touchFull, .held, .switching],
    fabric.canonical ∧ (held why).inBuf = false ∧ (held why).ld = some (0#3 : BitVec 3).toNat ∧ (held why).pkt.type = 2#8 ∧ (held why).pkt.src ≠ fabric.me ∧
      ({ { fabric with mem := { fabric.mem with waits := [held why] } } with mem := { fabric.mem with waits := [] } } : State).atHome (held why).pkt 10 := by
  intro why h
  refine ⟨canonical_of _ (by decide +kernel), rfl, rfl, rfl, show (wrReq 1).src ≠ fabric.me by decide +kernel, ?_⟩
  show ({ fabric with mem := { fabric.mem with waits := [] } } : State).atHome (wrReq 1) 10
  unfold State.atHome
  decide +kernel

/-! ## The stacks -/

/-- Subchannel 0 with lane 3 marked and 8 refreshes postponed; partition 0 evacuates its local subchannel 0. -/
def evacuates (copied : Nat) (ready : Bool) : State :=
  on0 { fabric with mem := { fabric.mem with subs := [(0, { SubState.zero with marked := some 3#4, postponed := 8 })] } } fun x =>
    { x with mapOuts := [⟨0, true, copied, ready, false⟩] }
def longAgo : State := { fabric with time := { fabric.time with mono := 60000000000#64 } }

theorem wit_StackEventsFollowTheirRules :
    (lanesOf (laneVote [0x010#12, 0x010#12, 0#12, 0#12]) = [4] ∧ 2 ≤ (lanesOf (laneVote [0x011#12, 0x011#12, 0#12])).length ∧ (fabric.sub 1).marked = none ∧ ((evacuates 0 false).sub 0).marked = some 3#4 ∧ (3#4 : BitVec 4).toNat ≠ 4) ∧
    ((evacuates 0 false).sub 0).postponed = 8 ∧
    (([105, 83] : List Int)[0]? = some 105 ∧ 0 < fabric.label.variant.stacks ∧ (SMap.get fabric.mem.stackSt 0 ⟨0, 0⟩).band ≤ 3) ∧
    60000000000 ≤ longAgo.time.mono.toNat - (longAgo.sub 575).retrained.toNat ∧
    (fabric.placeOfGranule 10 7 = some ((Spread.place ⟨0#32, 64#32, 0#32, 1#16, false⟩ 36 10 7)) ∧ fabric.blockOfFrame 10 = some 1) ∧
    (3 ∈ fabric.mem.fenced ∧ fabric.homeOf 3 = some (fabric.me, 12) ∧ fabric.mem.waits = []) ∧
    ((evacuates 0 true).part 0).evacuation = some ⟨0, true, 0, true, false⟩ ∧ ((evacuates 0 true).part 0).reset = none ∧
    ({ evacuates 0 false with mem := { fabric.mem with mem := [] } }).vacatedBlocks 0 = [] ∧ 0 + 1 < subGranules ∧
    subGranules ≤ (subGranules - 1) + 1 := by decide +kernel

theorem wit_StackEventsFollowTheirRules_reads : let data : List Byte := List.replicate 32 5#8
    readBurst (some 0) data 1 0 0 = .corrected data ∧ readBurst none data (2 ^ 287 + 1) (2 ^ 287 + 1) 0 = .rowFault ∧
    ((evacuates 0 true).readGranule 10 7 [] 0).2.isSome = true ∧
    ((evacuates 0 true).readGranule 10 7 [⟨0, 0, BitVec.ofNat 288 (2 ^ 287 + 1), BitVec.ofNat 288 (2 ^ 287 + 1), []⟩] 0).2 = none ∧
    canonicalB (evacuates 0 true) = true ∧ ((evacuates 0 true).granuleOn 0 0 0).isSome = true ∧ (evacuates 0 true).mem.waits = [] ∧
    (evacuates 0 true).frozenOn 0 = false := by decide +kernel

/-! ## Links -/

/-- Port 0 holds two packets for replay; port 1 one that was replayed 8 times and eight tag failures; port 2 trains; port 3 is down. -/
def keyed : PortState :=
  { upPort with replay := [⟨1#12, wrReq 2, 0⟩, ⟨2#12, wrReq 2, 0⟩], exch := some ⟨0, ⟨0#12544, 0#20736⟩, 0#512, some (1#256, 2#256), false⟩ }
def failing : PortState := { upPort with replay := [⟨1#12, wrReq 2, 8⟩], tagFails := List.replicate 8 500000000#64 }
def withPorts (s : State) (a b c d : PortState) : State :=
  { s with fab := { s.fab with ports := (((s.fab.ports.setIfInBounds 0 a).setIfInBounds 1 b).setIfInBounds 2 c).setIfInBounds 3 d } }
def linked : State := withPorts fabric keyed failing { PortState.reset with phase := .align } PortState.reset

theorem wit_ControlWordsTakeEffect : 0 < linked.label.variant.ports ∧ (linked.port 0).replay = [⟨1#12, wrReq 2, 0⟩] ++ ⟨2#12, wrReq 2, 0⟩ :: [] ∧
    (∀ x ∈ [(⟨1#12, wrReq 2, 0⟩ : Replay)], x.lseq ≠ 2#12) ∧ (linked.port 0).exch.bind (·.keys) = some (1#256, 2#256) := by decide +kernel

/-- A training that finds no fault, on the port that faces module 1. -/
def trains : TrainObs :=
  { states := 1, shorted := 0#4, open_ := 0#4, inverted := 0#4, permuted := false, txToTx := false, looped := false, twoFar := false, farDomain := 0#16,
    farSide := false, farModule := 4#10, farPort := 4#5, farPorts := 16#6, farGood := 0xF#4, delayNs := 20 }

theorem wit_PortsTrainAndGoDown_states : (∀ r ∈ (linked.port 3).replay, r.pkt.src ≠ linked.me) ∧ (∀ w ∈ linked.fab.waiting, w.port = 3 → w.pkt.src ≠ linked.me) ∧
    trains.states = 1 ∧ linked.time.worker ≠ .lost ∧ linked.isTwin 2 = false ∧ (linked.port 2).phaseAt.toNat + (linked.port 2).limit < 2 ^ 64 ∧
    { trains with txToTx := true }.txToTx = true ∧ 250 < { trains with delayNs := 251 }.delayNs := by decide +kernel

theorem wit_PortsTrainAndGoDown :
    ((∃ r ∈ (linked.port 1).replay, 8 ≤ r.replays) ∧ (∀ r ∈ (linked.port 0).replay, r.replays < 8) ∧ (linked.port 2).phase ≠ .up ∧
      (linked.port 2).phase ≠ .down ∧
      8 ≤ ((linked.port 1).tagFails.filter fun t => linked.time.mono.toNat ≤ t.toNat + 1000000000).length ∧
      ((linked.port 0).tagFails.filter fun t => linked.time.mono.toNat ≤ t.toNat + 1000000000).length < 8) ∧
    ((linked.port 3).phase = .down ∧ (linked.port 3).heldDown = false ∧ linked.facing 3 ≠ none ∧ linked.facing 14 = none ∧
      (trains.farGood &&& ~~~(trains.shorted ||| trains.open_ ||| (linked.port 3).dropped)) = 0xF#4 ∧ linked.checkFault 3 trains ≠ none ∧
      linked.checkFault 3 { trains with farPort := 3#5 } = none ∧ 5 ≤ { trains with states := 5 }.states) := by decide +kernel

/-- This module as module 1 of eight, a worker under manager 0 with encrypted links, its ports 6 (to module 0) in the state given. The identity key of
module 0 is the one with the number 5. -/
def workerPlate : Plate :=
  { homePlate with modules := [⟨0#512, 1#10, false, 0#2, false⟩, ⟨keyHash 5#20736, 0#10, false, 0#2, false⟩], hostports := [] }
def worker : State :=
  { fabric with boot := { fabric.boot with plate := some workerPlate }, sec := { fabric.sec with setup := { setup with linkEnc := true } } }
def offerer (x : PortState) : State := withPorts { fabric with sec := worker.sec } x failing failing failing
def exchange (keys : Option (BitVec 256 × BitVec 256)) : PortState :=
  { upPort with phase := .key, exch := some ⟨0, ⟨0#12544, 0#20736⟩, 0#512, keys, false⟩ }
def answerer (x : PortState) : State := { worker with fab := { worker.fab with ports := worker.fab.ports.setIfInBounds 6 x } }

/-- Verification is uninterpreted: each answer and each confirmation falls under one of the two clauses. -/
theorem wit_LinkKeysFollowVerifiedIdentities :
    ((offerer upPort).sec.setup.linkEnc = true ∧ ((offerer upPort).port 0).phase = .up ∧ (offerer upPort).offers 0 = true) ∧
    ((answerer upPort).offers 6 = false ∧ ((answerer upPort).port 6).phase = .up ∧ (answerer upPort).farKeyOk 6 5#20736 = true) ∧
    (∃ x, ((offerer (exchange none)).port 0).exch = some x ∧ (offerer (exchange none)).offers 0 = true ∧ x.keys = none) ∧
    (∃ x, ((answerer (exchange (some (1#256, 2#256)))).port 6).exch = some x ∧ x.keys = some (1#256, 2#256) ∧ x.sealed = false ∧
      (answerer (exchange (some (1#256, 2#256)))).offers 6 = false) := by
  refine ⟨by decide +kernel, ⟨by decide +kernel, by decide +kernel, ?_⟩, ⟨⟨0, ⟨0#12544, 0#20736⟩, 0#512, none, false⟩, by decide +kernel⟩,
    ⟨⟨0, ⟨0#12544, 0#20736⟩, 0#512, some (1#256, 2#256), false⟩, by decide +kernel⟩⟩
  have h : (answerer upPort).facing 6 = some (false, 0#10, 0) := by decide +kernel
  have e : (answerer upPort).identityOf false 0#10 = some (keyHash 5#20736) := rfl
  unfold State.farKeyOk
  rw [h]
  simp only [e, decide_true]

/-! ## Directory and migration -/

/-- A migration of block 1 from module `old` to module `new`. -/
def move (old new : BitVec 10) (switched : Bool) : Migration :=
  { block := 1, oldMod := old, oldFrame := 10#20, newMod := new, newFrame := 20#20, frozenAt := 4#48, moved := 0, run := 0#12, complete := false,
    switched := switched, through := false, doomed := false }
def moving (m : Migration) : State := { fabric with mem := { fabric.mem with migs := [m] } }
def switch (stroke : Stroke) : DirUpdate := ⟨stroke, 1#8, 1#32, 3#10, 20#20⟩
/-- Batch 0 is broadcast and not acknowledged by module 1. -/
def sent : State := { fabric with mem := { fabric.mem with unacked := [(0#32, 1#10)], sentBatch := [⟨0#32, 6#48, []⟩] } }

theorem wit_DirectoryBatchesApplyInOrder :
    (fabric.newBatch 0xFFFFFFFF#32 = false ∧ fabric.newBatch 3#32 = true ∧ fabric.mem.gotBatch = [] ∧ (3#32 : BitVec 32) ≠ fabric.mem.nextBatch ∧
      fabric.newBatch fabric.mem.nextBatch = true ∧ fabric.time.stroke.toNat < (6#48 : Stroke).toNat ∧ fabric.time.worker ≠ .lost) ∧
    ((moving (move 2#10 3#10 false)).mem.gotBatch = [] ∧ (switch 5#48).kind = 1#8 ∧ (switch 5#48).stroke.toNat ≤ fabric.time.stroke.toNat ∧
      (moving (move 2#10 3#10 false)).migOf 1 = some (move 2#10 3#10 false) ∧ (move 2#10 3#10 false).oldMod ≠ fabric.me ∧
      (move 2#10 3#10 false).newMod ≠ fabric.me ∧ (moving (move 2#10 3#10 false)).dirAddr 1 = some 4) ∧
    ((5#48 : Stroke).toNat ≤ fabric.time.stroke.toNat ∧ (⟨1#10, 0#5, 0#2, 0#2, false⟩ : LinkState).module ≠ fabric.me) ∧
    (sent.isManager = true ∧ sent.time.worker ≠ .lost ∧ (0#32, 1#10) ∈ sent.mem.unacked ∧
      sent.mem.sentBatch.find? (fun b => b.seq = 0#32) = some ⟨0#32, 6#48, []⟩) ∧ canonicalB (moving (move 2#10 3#10 false)) = true := by decide +kernel

/-- All granules of block 1 have moved to module 1; block 2's new home is here and has applied the queue. -/
def moved : Migration := { move 0#10 1#10 false with moved := 16384 }
theorem wit_MigrationEndsAtTheNewHome_moved : (moving moved).migOf (1#32 : BitVec 32).toNat = some moved ∧ moved.oldMod = fabric.me ∧
    moved.frozenAt.toNat ≤ fabric.time.stroke.toNat ∧ moved.switched = false ∧ 16384 ≤ moved.moved ∧ (move 0#10 1#10 false).moved < 16384 ∧
    (moving (move 1#10 0#10 false)).frameHeld 20 = false ∧ (move 0#10 1#10 true).newMod ≠ fabric.me := by decide +kernel

theorem wit_MigrationEndsAtTheNewHome :
    ((moving (move 0#10 1#10 false)).migOf 1 = some (move 0#10 1#10 false) ∧ (move 0#10 1#10 false).oldMod = fabric.me ∧
      (move 0#10 1#10 false).frozenAt.toNat ≤ fabric.time.stroke.toNat ∧ fabric.time.worker ≠ .lost) ∧
    (canonicalB (moving (move 1#10 0#10 false)) = true ∧ (moving (move 1#10 0#10 false)).migOf 1 = some (move 1#10 0#10 false) ∧
      (move 1#10 0#10 false).newMod = fabric.me ∧ (move 1#10 0#10 false).through = false ∧ (moving (move 1#10 0#10 false)).mem.waits = []) ∧
    ((moving (move 0#10 1#10 true)).migOf 1 = some (move 0#10 1#10 true) ∧ (move 0#10 1#10 true).oldMod = fabric.me ∧
      (move 0#10 1#10 true).newMod ≠ fabric.me) ∧
    (∀ x ∈ [{ session with incomplete := [256 * 2 + 1] }], x.port = 0#10 ∧ x.slot = 0 ∧ x.incomplete = [256 * (2#16 : BitVec 16).toNat + (1#8 : BitVec 8).toNat]) := by
  decide +kernel

end Sys2Proof.Tests
end

