-- ==== Sys2Proof/Tests/Service.lean ====
section
/-! SUPPORT. Tests/Service.lean: witnesses for the hypotheses of the statements on the request transport, messages, observation, admission and sessions.
Each theorem names its statement and shows a state and operands that meet the hypotheses of the clause it stands for. -/
namespace Sys2Proof.Tests
open Sys2Proof.Machine
set_option Elab.async false

/-! ## Handshakes -/

def astHdr (ptype : BitVec 4) (seq : BitVec 64) : AstHdr :=
  { version := 1#8, ptype := ptype, ackReq := false, resume := false, endpoint := 0#8, conn := 9#32, seq := seq, ack := 0#64, low := 0#64, sack := 0#64,
    len := 0#16, window := 0xFFFF#16, rsvd := 0#42 }
def addr : NetAddr := ⟨false, 0x0A000002#128, 4000#16⟩
def helloC : HelloC :=
  { hdr := astHdr 1#4 0#64, bodyLen := 4200, pace := 100#16, replace := 0xFF#8, rsvd := 0#40, nonce := 0#256, ekey := 0#12544, pubKey := 0#20736, src := addr }
def helloD : HelloD :=
  { hdr := astHdr 2#4 0#64, endpoint := 0#8, twinPort := 0#16, twin4 := 0#32, twin6 := 0#128, nonce := 0#256, ctext := 0#12544, pubKey := 0#20736,
    sig := 0#37016, src := addr }
def shake : Handshake :=
  { conn := 9#32, number := 0, pace := 100, replace := 0xFF#8, pubKey := 0#20736, src := addr, secret := 0#256, th := 0#512, sig := 0#37016,
    hello := helloD, at_ := 0#64 }
def fin (len : Nat) : Finish := ⟨astHdr 3#4 0#64, len, 0#37016, addr⟩
def shaking : State := { serving with trans := { serving.trans with handshakes := [shake] } }

/-- A FINISH of the right length either passes or fails by its signature or client list, which are uninterpreted: one of the two clauses holds. -/
theorem wit_HandshakesEstablishEndpoints :
    (serving.trans.linkUp = true ∧ serving.trans.accepting = true ∧ { helloC with hdr := { helloC.hdr with version := 2#8 } }.hdr.version ≠ 1#8 ∧
      { helloC with hdr := { helloC.hdr with rsvd := 1#42 } }.hdr.rsvd ≠ 0#42 ∧ serving.handshake 9#32 addr = none ∧
      serving.helloFault helloC = none ∧ serving.helloFault { helloC with pace := 0#16 } = some 7) ∧
    (shaking.trans.linkUp = true ∧ shaking.handshake 9#32 addr = some shake ∧ (fin 4627).hdr.endpoint.toNat = shake.number ∧
      shaking.finishFault shake (fin 1) = some 7) ∧
    (shaking.finishFault shake (fin 4627) = none ∨ ∃ r, shaking.finishFault shake (fin 4627) = some r) := by
  refine ⟨by decide +kernel, ⟨by decide +kernel, by decide +kernel, by decide +kernel, by decide +kernel⟩, ?_⟩
  cases shaking.finishFault shake (fin 4627) with
  | none => exact .inl rfl
  | some r => exact .inr ⟨r, rfl⟩

/-! ## Sealed packets -/

def endpoint : Endpoint :=
  { client := 0#512, th := 0#512, keyIn := 1#256, keyOut := 2#256, conn := 9#32, addr := addr, pace := 100, rxPoint := 5, rxHeld := [], txNext := 7,
    unacked := [], pacedq := [], srtt := none, rttvar := 0, bucket := 0, bucketAt := 0#64, window := 65536, retrans := 0, abandoned := 0, opens := [],
    bulk := none, ackDue := some 0#64, resume := false }
/-- A packet that verifies under the endpoint's key: its tag is the one that its contents give. -/
def sealed' (hdr : AstHdr) (msgs : List Msg) : AstPkt := ⟨hdr, msgs, astTag 1#256 0 hdr msgs, addr⟩
def withEp (e : Endpoint) : State := { serving with trans := { serving.trans with eps := [(0, e)] } }

theorem sealed_verifies (e : Endpoint) (hdr : AstHdr) (h : (hdr.version = 1#8 ∧ hdr.rsvd = 0#42 ∧ hdr.conn = e.conn ∧ hdr.len = 0#16) ∧ e.keyIn = 1#256) :
    e.verifies (sealed' hdr []) = true := by
  obtain ⟨⟨a, b, c, d⟩, k⟩ := h
  simp [Endpoint.verifies, sealed', a, b, c, d, k]

theorem wit_SealedPacketsActOnceInOrder_arrive :
    (serving.ep 0 = none ∧ (withEp endpoint).trans.linkUp = true ∧ (withEp endpoint).ep 0 = some endpoint) ∧
    endpoint.verifies ⟨{ astHdr 5#4 6#64 with version := 2#8 }, [], 0#128, addr⟩ = false ∧
    (∀ t ∈ [5#4, 6#4, 7#4], ∀ q ∈ [5#64, 6#64], endpoint.verifies (sealed' (astHdr t q) []) = true) ∧
    (∀ t ∈ [5#4, 6#4], endpoint.verifies (sealed' { astHdr t 6#64 with ackReq := true } []) = true) ∧
    (endpoint.heldBytes + 0 ≤ 131072 ∧ endpoint.rxHeld = [] ∧ (astHdr 5#4 6#64).resume = false ∧ (astHdr 5#4 6#64).low.toNat ≤ endpoint.rxPoint + 1 ∧
      (astHdr 5#4 5#64).seq.toNat ≤ endpoint.rxPoint ∧ (astHdr 5#4 6#64).seq.toNat = endpoint.rxPoint + 1) ∧
    ((withEp endpoint).openOf 0 = 0 ∧ ({ withEp endpoint with sess := { (withEp endpoint).sess with list := [session] } } : State).openOf 0 ≠ 0) := by
  refine ⟨by decide +kernel, by simp [Endpoint.verifies], fun t _ q _ => sealed_verifies _ _ ⟨⟨rfl, rfl, rfl, rfl⟩, rfl⟩,
    fun t _ => sealed_verifies _ _ ⟨⟨rfl, rfl, rfl, rfl⟩, rfl⟩, by decide +kernel, by decide +kernel⟩

def sentPkt (sends : Nat) : SentPkt := ⟨6, ⟨astHdr 5#4 6#64, [], 0#128, addr⟩, 10, sends, 0#64, 1000, false, false⟩
/-- A message behind the pacer: one that its tokens pay for, and one that they do not. -/
def queued (bucket : Nat) : Endpoint := { endpoint with pacedq := [⟨1#8, 0#8, 0#16, 0#32, []⟩], bucket := bucket, bucketAt := 500000000#64 }

theorem wit_SealedPacketsActOnceInOrder_send :
    ((∀ t ∈ [5#4, 6#4], endpoint.verifies (sealed' { astHdr t 9#64 with resume := true } []) = true) ∧ 1 ≤ (9#64 : BitVec 64).toNat) ∧
    (endpoint.ackDue ≠ none ∧ (withEp endpoint).time.mono.toNat = 500000000) ∧
    (({ endpoint with unacked := [sentPkt 8] }).unacked.find? (fun q => q.seq = 6) = some (sentPkt 8) ∧ (sentPkt 8).sacked = false ∧
      (sentPkt 8).sentAt.toNat + (sentPkt 8).rto ≤ serving.time.mono.toNat ∧ 8 ≤ (sentPkt 8).sends) ∧
    (({ endpoint with unacked := [sentPkt 1] }).unacked.find? (fun q => q.seq = 6) = some (sentPkt 1) ∧ (sentPkt 1).sends < 8 ∧
      ({ endpoint with unacked := [sentPkt 1] }).mayPace serving.time.mono.toNat 10 10 = true) ∧
    ((queued 8).mayPace serving.time.mono.toNat (msgBytes ⟨1#8, 0#8, 0#16, 0#32, []⟩).length 0 = true ∧
      (queued 0).mayPace serving.time.mono.toNat (msgBytes ⟨1#8, 0#8, 0#16, 0#32, []⟩).length 0 = false) :=
  ⟨⟨fun t _ => sealed_verifies _ _ ⟨⟨rfl, rfl, rfl, rfl⟩, rfl⟩, by decide⟩, by decide +kernel⟩

/-! ## Messages -/

/-- A message of a type with a body of so many bytes, from a number. -/
def msg (type : BitVec 8) (low : BitVec 32) (n v : Nat) : Msg := ⟨type, 0#8, BitVec.ofNat 16 n, low, leBytes n v⟩
/-- An OPEN of a 64-token prompt and 16 outputs, and one with two tokens inline for a prompt of one. -/
def openMsg : Msg := msg 1#8 7#32 32 (64 * 2 ^ 160 + 16 * 2 ^ 128 + 8 * 2 ^ 112 + 2 ^ 104)
def openLong : Msg := msg 1#8 7#32 40 (2 ^ 160 + 16 * 2 ^ 128 + 8 * 2 ^ 112 + 2 ^ 104 + 2 * 2 ^ 32)
/-- A session with half its prompt, on endpoint 0, with one output sent. -/
def half : Session :=
  { session with rcvd := 32, sendNext := 2, ring := [(0, ⟨5#32, 0#32, 7#48, 0#4, false, false, false⟩), (1, ⟨6#32, 1#32, 8#48, 0#4, false, false, false⟩)] }
def talking : State := { withEp endpoint with sess := { (withEp endpoint).sess with list := [half] } }

theorem wit_MessagesAreAnsweredOrRefused_session :
    (talking.ep 0 = some endpoint ∧ openBad (msg 1#8 7#32 31 0) = true ∧ (⟨4#8, 1#8, 0#16, 0#32, []⟩ : Msg).lenOk = false ∧
      openBad openLong = false ∧ (openTerms openLong).prompt.toNat < openLong.field 63 32) ∧
    (openBad openMsg = false ∧ openMsg.field 63 32 ≤ (openTerms openMsg).prompt.toNat ∧ endpoint.opens.length < 64 ∧ talking.boot.standing ≠ .heldVisible ∧
      talking.time.worker ≠ .lost) ∧
    ((msg 4#8 1#32 8 (32 * 2 ^ 32)).lenOk = true ∧ 8 ≤ (msg 4#8 1#32 8 0).len.toNat ∧ (msg 4#8 1#32 8 0).len.toNat = 8 + 4 * (msg 4#8 1#32 8 (32 * 2 ^ 32)).field 31 0 ∧
      talking.epSession 0 9#32 = none ∧ talking.epSession 0 1#32 = some half ∧ (msg 4#8 1#32 8 (31 * 2 ^ 32)).field 63 32 ≠ half.rcvd ∧
      (msg 4#8 1#32 8 (32 * 2 ^ 32)).field 63 32 = half.rcvd ∧
      half.rcvd + (msg 4#8 1#32 8 (32 * 2 ^ 32)).field 31 0 ≤ half.terms.prompt.toNat ∧
      (msg 4#8 1#32 140 (32 * 2 ^ 32 + 33)).len.toNat = 8 + 4 * (msg 4#8 1#32 140 (32 * 2 ^ 32 + 33)).field 31 0 ∧
      half.terms.prompt.toNat < half.rcvd + (msg 4#8 1#32 140 (32 * 2 ^ 32 + 33)).field 31 0) ∧
    ((msg 6#8 1#32 0 0).lenOk = true ∧ (msg 6#8 1#32 0 0).len = 0#16 ∧ { half with ring := [] }.ready = []) := by decide +kernel

theorem wit_MessagesAreAnsweredOrRefused_query :
    (queryBad (msg 8#8 1#32 8 0) = false ∧ talking.epSession 0 1#32 = some half ∧ (msg 8#8 1#32 8 1).field 31 0 < half.sendNext ∧
      half.sent = [⟨5#32, 0#32, 7#48, 0#4, false, false, false⟩, ⟨6#32, 1#32, 8#48, 0#4, false, false, false⟩] ∧
      (0#32 : BitVec 32).toNat ≤ (msg 8#8 1#32 8 1).field 31 0 ∧
      ({ half with ring := [(1, ⟨6#32, 1#32, 8#48, 0#4, false, false, false⟩)] }).sent = [⟨6#32, 1#32, 8#48, 0#4, false, false, false⟩] ∧
      (msg 8#8 1#32 8 0).field 31 0 < (1#32 : BitVec 32).toNat) ∧
    (observeOk (msg 0x0A#8 0#32 8 0) = true ∧ (msg 0x0A#8 0#32 8 0).field 63 56 = 0 ∧ observeOk (msg 0x0A#8 0#32 8 (2 ^ 56)) = true ∧
      (msg 0x0A#8 0#32 8 (2 ^ 56)).field 63 56 ≠ 0 ∧ ({ setup with obsLevel := 0#2 } : Setup).obsLevel = 0#2) := by decide +kernel

/-- A plate with a trace entry and one tensor; a dump of it waits, its endpoint's capture not begun. -/
def traceEntry : TraceEntry :=
  { module := 0#10, destMac := 0#48, ovfBase := 0#56, ovfGib := 0#8, dumpBase := 0#56, dumpMib := 1#16, mode := false, rearm := true, postCount := 4#32,
    trigKind := 0#8, trigSpace := 0#8, trigCode := 0#8, trigLayer := 0xFFFF#16, trigOp := 0xFFFF#16, trigValue := 0#32, sampleUs := 10#32,
    kindMask := 0xFF#8, rsvd := false, tagRsvd := false }
def tensor : SymbolRec := { kind := 1#8, id := 3#24, addr := 0#56, length := 32#32, format := 1#4, name := 0#128, rsvd := false }
def tracePlate (t : TraceEntry) : Plate := { plate with trace := some [t], symbols := [tensor] }
def traced (t : TraceEntry) (o : ObsState) : State := { withEp endpoint with boot := { serving.boot with plate := some (tracePlate t) }, obs := o }
def dumping : Endpoint := { endpoint with bulk := some ⟨3#24, 2#48, none, [], 0, none⟩ }
def waitsDump : State :=
  { traced traceEntry { ObsState.reset with dumps := [⟨0#8, 3#24, 2#48, none⟩] } with
    trans := (withEp dumping).trans, su := { serving.su with doneWork := 4#48, doneAt := some 90000000#64 } }

/-- The same with block 0 at home here, and held. -/
def heldDump : State :=
  { waitsDump with
    boot := { waitsDump.boot with plate := some { tracePlate traceEntry with placement := [⟨0#32, 1#32, 0#10, 0#10, 0#20, 6#4, true, 0xFFFF#16, false⟩] } }
    mem := { waitsDump.mem with held := [0] } }

theorem wit_MessagesAreAnsweredOrRefused_dump :
    ((msg 0x0C#8 0#32 12 (3 * 2 ^ 72)).lenOk = true ∧ (msg 0x0C#8 0#32 12 0).len = 12#16 ∧ (msg 0x0C#8 0#32 12 (3 * 2 ^ 72)).field 23 0 = 0 ∧
      2 ≤ (traced traceEntry .reset).sec.setup.obsLevel.toNat ∧ (traced traceEntry .reset).traceEntry ≠ none ∧ endpoint.bulk = none ∧
      dumping.bulk ≠ none ∧ (traced traceEntry .reset).tensor ((msg 0x0C#8 0#32 12 (3 * 2 ^ 72)).field 95 72) ≠ none ∧
      (traced traceEntry .reset).tensor ((msg 0x0C#8 0#32 12 (4 * 2 ^ 72)).field 95 72) = none) ∧
    ((msg 0x0D#8 0#32 0 0).lenOk = true ∧ (msg 0x0D#8 0#32 0 0).len = 0#16 ∧ serving.sec.setup.obsLevel ≠ 0#2) ∧
    (waitsDump.obs.dumps = [⟨0#8, 3#24, 2#48, none⟩] ∧ waitsDump.ep 0 = some dumping ∧ waitsDump.tensor 3 = some tensor ∧ waitsDump.traceEntry ≠ none ∧
      dumping.bulk = some ⟨3#24, 2#48, none, [], 0, none⟩ ∧ waitsDump.mayTake ⟨0#8, 3#24, 2#48, none⟩ tensor = true ∧
      (∀ g ∈ tensor.granules, waitsDump.granuleHeld g = false) ∧
      (∃ g ∈ tensor.granules, heldDump.granuleHeld g = true)) := by
  have h : ((∀ g ∈ tensor.granules, waitsDump.granuleHeld g = false) ∧ 0 ∈ tensor.granules ∧
    heldDump.granuleHeld 0 = true) := by decide +kernel
  refine ⟨by decide +kernel, by decide +kernel, by decide +kernel, by decide +kernel, by decide +kernel, by decide +kernel, by decide +kernel,
    by decide +kernel, h.1, 0, h.2⟩

/-! ## Observation -/

def notice : Notice := ⟨4#8, 0x40#8, 0x30#8, 0xFF#8, 0#32⟩
def known : State :=
  { serving with obs := { ObsState.reset with alarms := [AlarmEntry.new serving notice 0x30#8 0xFF#8], rates := [⟨4#8, 0x40#8, 0, 64⟩] } }
def windowed : TraceEntry := { traceEntry with mode := true }
def traceRec : TraceRec := ⟨0#64, 5#48, 6#8, 0x40#8, 0xFF#8, 0xFFFF#16, 0xFFFF#16, 0#80⟩

theorem wit_ObservationKeepsWhatHappens_notices :
    (serving.hostport.isSome = true ∧ serving.trans.linkUp = true ∧ (∀ h, serving.hostport = some h → h.vlanOk [] = true ∧
        forUs ⟨false, [], .arp h.ipv4⟩ h = true ∧ h.ipv4 ≠ 0#32 ∧ forUs ⟨true, [], .other⟩ h = true)) ∧ serving.portsOpen = true ∧
    (serving.obs.alarms.find? (fun e => e.space = notice.space && e.code = notice.code && e.die = notice.die && e.engine = notice.engine) = none ∧
      serving.obs.alarms.length < 1024 ∧
      known.obs.alarms.find? (fun e => e.space = notice.space && e.code = notice.code && e.die = notice.die && e.engine = notice.engine) =
        some (AlarmEntry.new serving notice 0x30#8 0xFF#8)) ∧
    rateOf serving notice (serving.ftOr0.toNat / 1000000000) < 64 ∧ 64 ≤ rateOf known notice (known.ftOr0.toNat / 1000000000) := by
  refine ⟨⟨by decide +kernel, by decide +kernel, ?_⟩, by decide +kernel⟩
  intro h e
  have : serving.hostport = some
      { ipv6 := 0#128, gateway6 := 0#128, ringBase := 0#56, pfx6 := 0#8, ipv4 := 0x0A000001#32, gateway4 := 0#32, pfx4 := 24#8,
        astPort := 9000#16, vlan := 0#12, echo := true, side := false, module := 0#10, rsvd := false } := by decide +kernel
  rw [this] at e
  cases e
  decide +kernel

theorem wit_ObservationKeepsWhatHappens_trace :
    ((traced traceEntry .reset).traceEntry = some traceEntry ∧ traceEntry.mode = false ∧ serving.label.variant.parts ≤ traceRec.die.toNat ∧
      (traced traceEntry .reset).obs.gap = none ∧ (traced traceEntry .reset).obs.trace.length + 1 < traceEntry.capacity ∧
      ovfBlocked (traced traceEntry .reset) traceEntry = false) ∧
    ({ traceEntry with sampleUs := 0#32 }.sampleUs = 0#32 ∧ traceEntry.sampleUs ≠ 0#32 ∧ traceEntry.ovfGib = 0#8 ∧ (traced traceEntry .reset).tracing 6 = true ∧
      (traced traceEntry .reset).set0.length < traceEntry.capacity) ∧
    (({ ObsState.reset with linkUp := true, trace := [traceRec] }).linkUp = true ∧
      (traced traceEntry { ObsState.reset with trace := [traceRec] }).gatherTrace.obs.trace ≠ []) ∧
    (windowed.mode = true ∧ (traced windowed { ObsState.reset with post := some 0 }).gatherTrace.obs.post = some 0 ∧ windowed.rearm = true ∧
      ({ ObsState.reset with frozen := true }).trace = []) := by decide +kernel

/-! ## Admission and sessions -/

def fwd : FwdOpen := ⟨0#10, 0#8, 7#32, session.terms⟩
def refuseRec : DecisionRec := ⟨3, fwd, .refuse ⟨1#8, 0#8, 0#10, 0#48, 4#48⟩⟩
def acceptRec : DecisionRec := ⟨3, fwd, .accept ⟨1#32, 4#48, 7#48, 64#16, 0#8, 6#4, [], 0#32, 0⟩⟩
def waiting : Endpoint := { endpoint with opens := [⟨fwd, []⟩] }
/-- The manager with the OPEN in its queue, awaiting the deputy's acknowledgement, or decided. -/
def manager (f : AeState → AeState) : State := { withEp waiting with ae := f serving.ae }

theorem wit_AdmissionAnswersEveryOpen :
    (serving.isManager = true ∧ (∀ d ∈ serving.ae.records, d.req ≠ fwd) ∧ fwd ∉ serving.ae.queue ∧ (∀ d ∈ serving.ae.awaiting, d.req ≠ fwd) ∧
      serving.ae.queue.length < 1024 ∧ 1024 ≤ (List.replicate 1024 fwd).length ∧ serving.deputyToAsk = none ∧ serving.time.worker ≠ .lost) ∧
    ((manager fun a => { a with records := [refuseRec] }).ae.records.find? (fun d => d.req = fwd) = some refuseRec) ∧
    ((manager fun a => { a with queue := [fwd] }).ae.queue = [fwd] ∧ (manager fun a => { a with queue := [fwd] }).asksHolder = false) ∧
    ((manager fun a => { a with awaiting := [refuseRec] }).ae.awaiting.find? (fun d => d.id = 3) = some refuseRec) ∧ serving.side = false := by decide +kernel

/-- A plate with blocks for session state and costs for every row, and its manager with admission open: the OPEN fits. -/
def admPlate : Plate :=
  { plate with
    kv := [⟨0#10, 0#5, 0#16, kvDesc, false, false⟩]
    placement := [⟨1#32, 4#32, 0#10, 0#10, 10#20, 3#4, false, 0#16, false⟩, ⟨5#32, 6#32, 0#10, 0#10, 14#20, 4#4, false, 0#16, false⟩]
    admRecs := [⟨cost, 8#32, 0#32, 0#16, List.replicate 120 ⟨1#32, 1#32, 0#32, 0#32⟩, false⟩] }
def admits : State :=
  { (manager fun a => { a with isOpen := true, mods := [(0, { ModInfo.zero with nMin := 36 })] }) with boot := { serving.boot with plate := some admPlate } }

theorem wit_AcceptedSessionsFit : ∃ p c, admits.cclass fwd.terms.cclass = some c ∧ (admits.decide fwd 5).2 = some p ∧
    (∀ u ∈ [3, 4], ∀ b ∈ admits.instBlocks c.inst u, b < 2 ^ 32) ∧ ∀ n ∈ c.chunkSizes, n < 65536 := by
  have h : (admits.decide fwd 5).2.isSome = true := by decide +kernel
  obtain ⟨p, hp⟩ := Option.isSome_iff_exists.mp h
  have g : (admits.cclass fwd.terms.cclass).all (fun c =>
      ([3, 4].all fun u => (admits.instBlocks c.inst u).all fun b => b < 2 ^ 32) && c.chunkSizes.all fun n => n < 65536) = true := by decide +kernel
  have e : (admits.cclass fwd.terms.cclass).isSome = true := by decide +kernel
  obtain ⟨c, hc⟩ := Option.isSome_iff_exists.mp e
  rw [hc, Option.all_some, Bool.and_eq_true] at g
  refine ⟨p, c, hc, hp, ?_, ?_⟩
  · simpa only [List.all_eq_true, decide_eq_true_eq] using g.1
  · simpa only [List.all_eq_true, decide_eq_true_eq] using g.2

/-- The holder's joint allocation finds the same plan. -/
theorem wit_AdmissionAnswersEveryOpen_holder : admits.side = false ∧ accepts (admits.decideAt fwd admits.time.stroke.toNat false) = true := by
  decide +kernel

/-- Outputs ready on a session that is not suspended; a session whose prompt is not complete. -/
def sends : Session := { session with ring := [(0, ⟨5#32, 0#32, 7#48, 0#4, false, false, false⟩)] }
def sendsEnd : Session := { session with ring := [(0, ⟨5#32, 0#32, 7#48, 0#4, false, true, false⟩)] }
def hosting (x : Session) : State := { withEp waiting with sess := { serving.sess with list := [x] } }
def ledger : LedgerEntry :=
  { handle := 1#32, port := 0#10, terms := session.terms, inst := 0#16, admAt := 4#48, first := 7#48, chunk := 64#16, pageLog2 := 6#4, frames := [],
    frameLen := 0, area := 0#32, areaLen := 0, begin_ := 5#48, stop := none, replays := [], held := false, drained := [], released := false, ring := false }

theorem wit_SessionsOpenSendAndClose :
    (refuseRec.req.port = serving.me ∧ (withEp waiting).ep 0 = some waiting ∧
      waiting.opens.find? (fun w => w.req.tag = refuseRec.req.tag && w.req.terms = refuseRec.req.terms) = some ⟨fwd, []⟩ ∧
      (∃ r, refuseRec.dec = .refuse r) ∧ (∃ g, acceptRec.dec = .accept g) ∧ fwd.port = serving.me ∧ (withEp waiting).session ⟨serving.me, 1#32⟩ = none) ∧
    ((hosting half).slotSession 0 = some half ∧ (hosting half).session half.key = some half ∧ half.rcvd < half.terms.prompt.toNat) ∧
    ((hosting sends).slotSession 0 = some sends ∧ (hosting sends).session sends.key = some sends ∧ sends.terms.prompt.toNat ≤ sends.rcvd ∧
      (hosting sends).trans.linkUp = true ∧ sends.suspended = none ∧ sends.valid = none ∧ sends.ready ≠ [] ∧ (∀ r ∈ sends.ready, r.fin = false) ∧
      (∃ r ∈ sendsEnd.ready, r.fin = true)) ∧
    (ledger ∈ (manager fun a => { a with ledger := [ledger] }).ae.ledger ∧ ledger.key = ⟨0#10, 1#32⟩ ∧ ledger.released = false ∧
      (manager fun a => { a with ledger := [ledger] }).instModules 0#16 = [0#10]) :=
  ⟨⟨by decide +kernel, by decide +kernel, by decide +kernel, ⟨_, rfl⟩, ⟨_, rfl⟩, by decide +kernel⟩, by decide +kernel⟩

end Sys2Proof.Tests
end

