-- ==== Sys2Proof/Tests/Streams.lean ====
section
/-! SUPPORT. Tests/Streams.lean: witnesses for the hypotheses of the statements on program commands, vector operations, number formats, strokes and
stream owners. Each theorem names its statement and shows a state and operands that meet the hypotheses of the clause it stands for. -/
namespace Sys2Proof.Tests
open Sys2Proof.Machine
set_option Elab.async false

theorem wit_StepRunsTheFrontCommand : { serving with pending := [.idle 0#5, .status] }.pending = .idle 0#5 :: [.status] := rfl

theorem wit_IdleStepMovesOnlyTheClocks : serving.pending = [] ∧ serving.time.ftSet = true ∧ State.reset.pending = [] ∧
    State.reset.time.ftSet = false := by decide +kernel

/-- States with one command at the head of its stream: a product, a vector sum, a copy and a die-cache drop. -/
def headMat : State := headed0 (iss (.csq 0) 0#8) (.mat 0x11 matOps)
def headVec : State := headed0 (iss (.csq 0) 4#8) (.vec .fadd vecOps)
def headDe : State := headed0 (iss .cc 0x21#8) (.de 0x30 deOps)
def headCinv : State := headed0 (iss .cc 0x22#8) (.cinv deOps)

theorem wit_EngineCommandsIssueInOrder_matrix : headMat.mayIssue (iss (.csq 0) 0#8) (plateCmd (hdr 0#8) .mmul (.mat matOps)) ∧
    (headMat.su.catchup && deferrable (hdr 0#8)) = false ∧ headMat.canAccept 0 0 (.mat matOps) = true := by
  unfold State.mayIssue State.mayRetire; decide +kernel
theorem wit_EngineCommandsIssueInOrder_vector : headVec.mayIssue (iss (.csq 0) 4#8) (plateCmd (hdr 4#8) (.vop .fadd) (.vec vecOps)) ∧
    (headVec.su.catchup && deferrable (hdr 4#8)) = false ∧ headVec.canAccept 0 4 (.vec vecOps) = true := by
  unfold State.mayIssue State.mayRetire; decide +kernel
theorem wit_EngineCommandsIssueInOrder_dma : headDe.mayIssue (iss .cc 0x21#8) (plateCmd (hdr 0x21#8) .dcopy (.de deOps)) ∧
    (headDe.su.catchup && deferrable (hdr 0x21#8)) = false ∧ headDe.canAccept 0 0x21 (.de deOps) = true := by
  unfold State.mayIssue State.mayRetire; decide +kernel
theorem wit_EngineCommandsIssueInOrder_dcache : headCinv.mayIssue (iss .cc 0x22#8) (plateCmd (hdr 0x22#8) .cinv (.de deOps)) ∧
    headCinv.canAccept 0 0x22 (.de deOps) = true := by
  unfold State.mayIssue State.mayRetire; decide +kernel

/-- Engines whose queues are full. -/
def full (s : State) : State :=
  let c := cmd (iss .cc 0x21#8) .nop .none
  on0 s fun x =>
    { x with clusters := Vector.replicate 4 { arrays := Vector.replicate 4 { MArray.reset with queue := [c, c] }
                                              ve := { Ve.reset with queue := [c, c] }, csq := (x.cluster 0).csq }
             de := { x.de with running := List.replicate 64 c }, dcache := { x.dcache with queue := [c, c, c, c] } }

theorem wit_CommandsWaitAtTheHeadOfTheirStream_full :
    ((full headMat).mayIssue (iss (.csq 0) 0#8) (plateCmd (hdr 0#8) .mmul (.mat matOps)) ∧ (full headMat).canAccept 0 0 (.mat matOps) = false) ∧
    ((full headVec).mayIssue (iss (.csq 0) 4#8) (plateCmd (hdr 4#8) (.vop .fadd) (.vec vecOps)) ∧ (full headVec).canAccept 0 4 (.vec vecOps) = false) := by
  unfold State.mayIssue State.mayRetire; decide +kernel
theorem wit_CommandsWaitAtTheHeadOfTheirStream_dma :
    ((full headDe).mayIssue (iss .cc 0x21#8) (plateCmd (hdr 0x21#8) .dcopy (.de deOps)) ∧ (full headDe).canAccept 0 0x21 (.de deOps) = false) ∧
    ((full headCinv).mayIssue (iss .cc 0x22#8) (plateCmd (hdr 0x22#8) .cinv (.de deOps)) ∧ (full headCinv).canAccept 0 0x22 (.de deOps) = false) ∧
    ((full headDe).su.catchup && deferrable (hdr 0x21#8)) = false := by
  unfold State.mayIssue State.mayRetire; decide +kernel

/-- A command that waits for semaphore 3 to reach 1, at the head of its stream. -/
def waits : Issue := { iss (.csq 0) 4#8 with hdr := { hdr 4#8 with waitEn := true, waitSem := 3#13, waitCount := 1#16 } }
def headWait : State := headed0 waits (.vec .fadd vecOps)

theorem wit_CommandsWaitAtTheHeadOfTheirStream_wait : waits.part.toNat < headWait.label.variant.parts ∧ headWait.owns waits = true ∧
    headWait.atHead waits (plateCmd waits.hdr (.vop .fadd) (.vec vecOps)) = true ∧
    (headWait.headOf waits).issued < headWait.domain.streamLimit.toNat ∧ headWait.waitMet 0 waits.hdr = false := by decide +kernel
theorem wit_CommandsWaitAtTheHeadOfTheirStream_other : headWait.owns (iss (.csq 0) 4#8) = true ∧
    headWait.atHead (iss (.csq 0) 4#8) (plateCmd (hdr 4#8) (.vop .fadd) (.vec vecOps)) = false ∧
    headVec.atHead (iss (.csq 0) 4#8) (plateCmd (hdr 4#8) (.vop .fsub) (.vec vecOps)) = false := by decide +kernel

/-- Semaphore 3 in the work stroke, semaphore 4 of an earlier one. -/
def sems : State := on0 working fun x => { x with sems := [(3, ⟨5#48, 2#16⟩), (4, ⟨4#48, 7#16⟩)] }

theorem wit_SemaphoreWaitNeedsTheEffectiveCount : waits.hdr.waitSem.toNat < 8064 ∧ ((sems.part 0).sem 3).stroke = sems.su.work ∧
    waits.hdr.waitEn = true ∧ ((sems.part 0).sem 4).stroke.toNat < sems.su.work.toNat ∧ (hdr 4#8).waitEn = false := by decide +kernel

/-- The stream of cluster K0 has issued as many commands as the plate allows. -/
def limited (s : State) : State := on0 s fun x => x.modOwner (.csq 0) fun o => { o with serve := { o.serve with issued := 1000 } }
/-- The command at the head of a stream has stood there since FT 1,000. -/
def since : State := on0 headDe fun x => x.modOwner .cc fun o => { o with serve := { o.serve with headAt := some 1000#64 } }

theorem wit_TimeoutsBeginEngineResets_limit : (limited headVec).atHead (iss (.csq 0) 4#8) (plateCmd (hdr 4#8) (.vop .fadd) (.vec vecOps)) = true ∧
    ((limited headVec).headedBy (iss (.csq 0) 4#8)).isSome = true ∧ (limited headVec).owns (iss (.csq 0) 4#8) = true ∧
    ((limited headVec).su.catchup && deferrable (hdr 4#8)) = false ∧
    (limited headVec).domain.streamLimit.toNat ≤ ((limited headVec).headOf (iss (.csq 0) 4#8)).issued ∧ ((limited headVec).part 0).reset = none ∧
    (∀ r ∈ ((limited headVec).part 0).engResets, r.engine ≠ 4) := by decide +kernel
theorem wit_TimeoutsBeginEngineResets_expiry : since.headSince (iss .cc 0x21#8) = some 1000#64 ∧ 0#16 ∉ since.su.failed ∧ since.time.ftSet = true ∧
    since.timeoutEnd 1000#64 (hdr 0x21#8).timeout < 2 ^ 64 ∧ (since.part 0).reset = none ∧ (∀ r ∈ (since.part 0).engResets, r.engine ≠ 0x21) ∧
    since.admRec 0#16 ≠ none ∧ 0#16 ∈ ({ since with su := { since.su with failed := [0#16] } } : State).su.failed := by decide +kernel

/-- The same module in a catch-up stroke, and a command of class 2. -/
def deferred : Issue := { iss (.csq 0) 4#8 with hdr := { hdr 4#8 with cls := 2#4 } }
def catching : State := let s := headed0 deferred (.vec .fadd vecOps); { s with su := { s.su with catchup := true } }

theorem wit_CatchUpRetiresDeferrableCommands : catching.mayRetire deferred (plateCmd deferred.hdr (.vop .fadd) (.vec vecOps)) ∧
    catching.su.catchup = true ∧ 1 ≤ deferred.hdr.cls.toNat ∧ deferred.hdr.cls.toNat ≤ 4 := by unfold State.mayRetire; decide +kernel

theorem wit_ControlCommandsMoveTheStream : let i := iss (.csq 0) 5#8
    (headed0 i .nop).mayIssue i (some .nop) ∧ ((headed0 i .nop).su.catchup && deferrable (hdr 5#8)) = false ∧
    i.prog ≠ 2#2 ∧ isNaN 0x7FC00000#32 = true ∧ (3 : Nat) < 6 ∧ (7 : Nat) < 8 := by
  unfold State.mayIssue State.mayRetire; decide +kernel
theorem wit_ControlCommandsMoveTheStream_control : let i := iss .cc 0x20#8
    ∀ k ∈ [0x40, 0x41, 0x42, 0x43, 0x44], (headed0 i (.ctl k ctlOps)).mayIssue i (some (.ctl k ctlOps)) := by
  unfold State.mayIssue State.mayRetire; decide +kernel

/-- END of the job's stream, owned while the job runs and class 5 is granted. -/
def jobEnd : Issue := { iss .cc 0x20#8 with prog := 2#2, hdr := { hdr 0x20#8 with cls := 5#4, timeout := 1#24 } }
def jobStream : State :=
  on0 { headed0 jobEnd (.ctl 0x44 ctlOps) with job := { JobState.reset with phase := .running } } fun x =>
    x.modOwner .cc fun o => { o with job := { StreamPos.reset with prog := 2#2 }, grant := true }

theorem wit_ControlCommandsMoveTheStream_job : jobStream.mayIssue jobEnd (some (.ctl 0x44 ctlOps)) ∧ jobEnd.prog = 2#2 := by
  unfold State.mayIssue State.mayRetire; decide +kernel

/-- The same stream at its limit; a job command that has stood at the head since FT 1,000. -/
def jobLimited : State := on0 jobStream fun x => x.modOwner .cc fun o => { o with job := { o.job with issued := 1000 } }
def jobSince : State := on0 jobStream fun x => x.modOwner .cc fun o => { o with job := { o.job with headAt := some 1000#64 } }

theorem wit_TimeoutsBeginEngineResets_job :
    (jobLimited.atHead jobEnd (some (.ctl 0x44 ctlOps)) = true ∧ jobLimited.owns jobEnd = true ∧ (jobLimited.su.catchup && deferrable jobEnd.hdr) = false ∧
      jobLimited.domain.streamLimit.toNat ≤ (jobLimited.headOf jobEnd).issued ∧ (jobLimited.part 0).reset = none ∧ (jobLimited.part 0).engResets = [] ∧
      jobEnd.hdr.cls = 5#4 ∧ jobLimited.job.phase = .running) ∧
    (jobSince.headSince jobEnd = some 1000#64 ∧ jobSince.time.ftSet = true ∧ jobSince.timeoutEnd 1000#64 jobEnd.hdr.timeout < 2 ^ 64 ∧
      (jobSince.part 0).reset = none ∧ (jobSince.part 0).engResets = [] ∧ jobSince.job.phase = .running) := by decide +kernel

/-- The VE of K0 is at the end of a command with a summary. -/
def ending : RunCmd := { cmd (iss (.csq 0) 4#8) (.vop .fadd) (.vec vecOps) with done := true, summary := some 5#32 }
def completes : State := on0 working fun x => x.modCluster 0 fun c => { c with ve := { c.ve with running := [ending] } }

theorem wit_CompletionClosesTheCommand : (0#4 : BitVec 4).toNat < completes.label.variant.parts ∧ (completes.part 0).reset = none ∧
    (completes.part 0).completing 4 0x20 = some ending ∧ ending.gen = (completes.part 0).genOf (unitOf 4) ∧ unitOf 4 = .ve 0 ∧
    ending.args = .vec vecOps ∧ ending.summary = some 5#32 ∧ completes.time.ftSet = true ∧
    completes.endOf (ending.stalled 0) ≤ completes.timeoutEnd (ending.headAt.getD ending.issuedAt) ending.hdr.timeout ∧
    completes.endOf (ending.stalled 0) < 2 ^ 64 ∧
    completes.timeoutEnd (ending.headAt.getD ending.issuedAt) ending.hdr.timeout < completes.endOf (ending.stalled 0xFFFFFFFF) ∧
    ∀ x ∈ (completes.part 0).engResets, x.engine ≠ 4 := by decide +kernel

theorem wit_SignalAppliedByItsStroke : (sems.part 0).reset = none ∧ (⟨3#13, 5#48, 1#16⟩ : Signal).sem.toNat < 8064 ∧
    (⟨4#13, 5#48, 1#16⟩ : Signal).stroke = sems.su.work ∧ ((sems.part 0).sem 4).stroke.toNat < sems.su.work.toNat ∧
    ((sems.part 0).sem 3).stroke = sems.su.work ∧ sems.su.work.toNat < (⟨3#13, 6#48, 1#16⟩ : Signal).stroke.toNat ∧
    (sems.part 0).early.length < 256 ∧ ((on0 sems fun x => { x with early := List.replicate 256 ⟨3#13, 6#48, 1#16⟩ }).part 0).early.length = 256 ∧
    (⟨3#13, 4#48, 1#16⟩ : Signal).stroke.toNat < sems.su.work.toNat := by decide +kernel

/-! ## Vector operations and number formats -/

/-- A run of FADD over one window, apart from its sources; and one with DST pass. -/
def vargs (dst : WinField) : VArgs := vopArgs working .reset (cmd (iss (.csq 0) 4#8) (.vop .fadd) (.vec vecOps)) vecOps |> fun x => { x with dst := dst }
def vrun : VRun := ⟨[(3, 1#8)], some (List.replicate 1024 0#32), [], .zero, none⟩

theorem wit_VectorRunsComputeEachElement : VOp.fadd.elementwise = true ∧ Memory.wf vrun.sp ∧ (∀ l, vrun.pass = some l → l.length = 1024) ∧
    (vargs (.at 0x4000)).dst = .at 0x4000 ∧ (vargs (.at 0x4000)).clear .fadd 0x4000 ∧ (vargs .pass).dst = .pass ∧ (vargs .pass).count = 1 := by
  refine ⟨by decide, by decide, ?_, rfl, ?_, rfl, by decide +kernel⟩
  · intro l e; cases e; decide +kernel
  · refine ⟨fun _ => .inl (by decide +kernel), fun _ _ => .inl (by decide +kernel), fun h => by cases h⟩

theorem wit_VectorCommandWritesItsResults :
    let i := iss (.csq 0) 4#8
    let x := headVec.part 0
    let ve := (x.cluster 0).ve
    let r := headVec.runCmd i (.vop .fadd) (.vec vecOps)
    i.hdr.engine = BitVec.ofNat 8 (veCode 0) ∧ headVec.mayIssue i (some (.vec .fadd vecOps)) ∧ (headVec.su.catchup && deferrable i.hdr) = false ∧
      headVec.canonical ∧ x.quiet ∧
      vopBad headVec 0 ve .fadd r vecOps = false ∧ (∀ q ∈ vopSources .fadd i.hdr vecOps r.off, x.badIn q.1 q.2 = false) ∧
      (vopArgs headVec ve r vecOps).dst = .at 0x4000 ∧ (vopArgs headVec ve r vecOps).clear .fadd 0x4000 := by
  refine ⟨by decide +kernel, by unfold State.mayIssue State.mayRetire; decide +kernel, by decide +kernel, canonical_of _ (by decide +kernel), ?_, by decide +kernel,
    by decide +kernel, by decide +kernel, ?_⟩
  · unfold Part.quiet; decide +kernel
  · refine ⟨fun _ => .inl (by decide +kernel), fun _ _ => .inl (by decide +kernel), fun h => by cases h⟩

theorem wit_FormatsRoundWidenAndScale : Fmt.toFl .bf16 (0x3F80#16 : BitVec 16).toNat ≠ .nan ∧ Fmt.toFl .fp16 (0x3C00#16 : BitVec 16).toNat ≠ .nan ∧
    ([0x3F800000#32, 0#32] : List Word32) ≠ [] ∧ (∀ z ∈ [0x3F800000#32, 0#32], magBits z < 0x7F800000) ∧
    (∃ z ∈ [0x7FC00000#32], 0x7F800000 ≤ magBits z) ∧ (∃ z ∈ [0x80000000#32], magBits z = 0) := by
  have h : Fmt.toFl .bf16 (0x3F80#16 : BitVec 16).toNat = .fin false 128 (-7) := by decide +kernel
  have g : Fmt.toFl .fp16 (0x3C00#16 : BitVec 16).toNat = .fin false 1024 (-10) := by decide +kernel
  have lt (z : Word32) (hz : Nat.blt (magBits z) 0x7F800000 = true) : magBits z < 0x7F800000 := by rwa [Nat.blt_eq] at hz
  refine ⟨h ▸ Fl.noConfusion, g ▸ Fl.noConfusion, by decide, ?_, ⟨_, .head _, Nat.le_of_ble_eq_true (by decide +kernel)⟩, ⟨_, .head _, by decide +kernel⟩⟩
  simp only [List.mem_cons, List.not_mem_nil, or_false, forall_eq_or_imp, forall_eq]
  exact ⟨lt _ (by decide +kernel), lt _ (by decide +kernel)⟩

/-! ## Strokes and owners -/

theorem wit_StrokesAndTheirPhases : 200000 + serving.domain.slackNs + serving.domain.proofNs + 20000 ≤ serving.periodNs ∧
    serving.domain.slack = 0#32 ∧ serving.domain.proofWin = 0#32 ∧ serving.time.ftSet = true ∧ serving.boot.plate.isSome = true ∧
    serving.strokeStart (serving.time.stroke.toNat + 1) < 2 ^ 64 := by decide +kernel

/-- Work stroke 4 is complete and stroke 5 may begin; in `finished` stroke 5's one stream has ended everywhere. -/
def advances : State := { working with su := { working.su with work := 4#48, doneAt := some 99000000#64 } }
def finished : State := { working with su := { working.su with tables := [⟨5#48, 0#16, false, []⟩] } }

theorem wit_WorkStrokesAdvanceAndComplete : advances.mayAdvance = true ∧ finished.su.begun = true ∧ finished.su.doneAt = none ∧
    (∀ p < finished.label.variant.parts, finished.partDone p = true) ∧ working.time.ftSet = true ∧ working.running = true ∧
    working.su.begun = true ∧ working.su.doneWork.toNat < working.time.stroke.toNat ∧
    ({ working with su := { working.su with doneWork := 5#48 } } : State).time.stroke.toNat ≤ 5 := by decide +kernel

def lagFree : State := { working with su := { working.su with lagFree := true } }
/-- An instance that this module shares but does not lead, and its table for stroke 6. -/
def shared : State := { working with boot := { working.boot with plate := some { plate with
  instances := [⟨1#16, 1#10, 0#10, 1#10, 16#13, false⟩] } } }

theorem wit_StrokeEventsPrepareTheNextStroke :
    (lagFree.su.lagFree = true ∧ lagFree.time.ft.toNat < lagFree.closeAt lagFree.time.stroke.toNat ∧ [0#10, 575#10].length ≤ 16 ∧
      ∀ g ∈ [0#10, 575#10], g.toNat < 48 * lagFree.label.variant.stacks) ∧
    (working.time.ftSet = true ∧ working.running = true ∧ working.su.begun = true ∧ working.proofAt working.su.work.toNat < 2 ^ 64) ∧
    (∃ b, (working.su.tables ++ working.su.next).find? (fun u => u.inst = 0#16 && !working.su.written.contains (u.inst, u.stroke)) = some b ∧
      b.stroke.toNat ≤ working.su.doneWork.toNat + 2) ∧
    ((∀ u ∈ shared.su.tables ++ shared.su.next, ¬(u.inst = 1#16 ∧ u.stroke = 5#48)) ∧ shared.instNums.contains 1#16 = true ∧
      shared.ledInsts.contains 1#16 = false ∧ shared.su.begun = true ∧ (5#48 : Stroke) = shared.su.work ∧ shared.table 1#16 = none) := by
  refine ⟨by decide +kernel, by decide +kernel, ⟨⟨5#48, 0#16, false, [row 2#8]⟩, by decide +kernel, by decide +kernel⟩, by decide +kernel⟩

/-- A plate with a tuning job of instance 0 whose stream the CC of partition 0 runs; serving is over there. -/
def tuning : Tuning :=
  { inst := 0#16, jobBase := 0#56, stepsMax := 4#32, rootEvery := 1#16, every1 := 0#16, every2 := 1#16, every3 := 0#16, groups := [], ranges := [],
    rsvd := false }
def jobPlate : Plate := { plate with tuning := some tuning, programs := [⟨0#16, 2#2, 0#10, 0#4, 4#3, 0#56, [], false⟩] }
def jobRuns : State :=
  on0 { finished with boot := { finished.boot with plate := some jobPlate }, job := { JobState.reset with phase := .running, step := 1 } } fun x =>
    x.modOwner .cc fun o => { o with job := { StreamPos.reset with prog := 2#2, headAt := some 0#64 } }

theorem wit_OwnersAreGrantedParkedAndStopped :
    (jobRuns.job.phase = .running ∧ jobRuns.jobInst = some 0#16 ∧ ((jobRuns.part 0).owner .cc).job.headAt.isSome = true ∧
      ((jobRuns.part 0).owner .cc).parked = false ∧ jobRuns.su.catchup = false ∧ jobRuns.servingOver 0 = true ∧
      jobRuns.time.ft.toNat + 1000 * (hdr 0x20#8).timeout.toNat ≤ jobRuns.dueAt jobRuns.su.work.toNat) ∧
    jobRuns.dueAt jobRuns.su.work.toNat < jobRuns.time.ft.toNat + 1000 * (0xFFFFFF#24 : BitVec 24).toNat ∧
    ((jobRuns.stream 0 .cc 0#16 2#2).isSome = true ∧ ∀ c ∈ (jobRuns.part 0).allCmds, ¬(c.hdr.cls = 5#4 ∧ c.owner = .cc)) ∧
    (0#16 ∉ working.su.failed ∧ (0#16, working.su.work) ∉ working.su.restore ∧ (0#16, working.su.work) ∉ working.su.doomed) := by decide +kernel

/-- A codebook record that has come whole. -/
def bookCame : State := on0 working fun x => { x with de := { x.de with bookFetch := [(128, [(0, 1#1024)])] } }

theorem wit_ScratchpadAndCodebookEvents : working.canonical ∧ (0#4 : BitVec 4).toNat < working.label.variant.parts ∧
    (⟨.activation 0, 1024#32⟩ : Starved) ∈ [(⟨.activation 0, 1024#32⟩ : Starved)] ∧ 1024 ≤ (⟨.activation 0, 1024#32⟩ : Starved).waited.toNat ∧
    (∀ r ∈ [(⟨.activation 0, 5#32⟩ : Starved)], r.waited.toNat < 1024) ∧ (64#26 : BitVec 26).toNat / 8 ∉ (working.part 0).bad ∧
    (bookCame.part 0).de.bookFetch.find? (fun f => f.1 = 128) = some (128, [(0, 1#1024)]) ∧ ([(0, 1#1024)] : SMap Granule) ≠ [] ∧
    ∀ r ∈ (bookCame.part 0).de.sendq ++ (bookCame.part 0).de.inflight, r.use ≠ .codebook 128 :=
  ⟨canonical_of _ (by decide +kernel), by decide +kernel, by decide, by decide, by decide, by decide +kernel, by decide +kernel, by decide, by decide +kernel⟩

end Sys2Proof.Tests
end

