-- ==== Sys2Proof/Tests/System.lean ====
section
/-! SUPPORT. Tests/System.lean: witnesses for the hypotheses of the statements on time, the store, the tuning job, start, the twin pair, recovery, power
and the sideband. Each theorem names its statement and shows a state and operands that meet the hypotheses of the clause it stands for. -/
namespace Sys2Proof.Tests
open Sys2Proof.Machine
set_option Elab.async false

/-! ## Time -/

/-- The manager in a master state, with so many offsets in a row counted, at FT 110,000,000 ns. -/
def mastering (m : MasterState) (runs : Nat) (slewing : Bool) : State :=
  { serving with time := { serving.time with master := m, masterRuns := runs, slewing := slewing, suspectAt := some 0#64, mono := 60000000000#64 } }
/-- A Sync that arrived now and says that FT is `off` ns ahead. -/
def sync (off : Nat) : PtpSync := ⟨0#8, 1#2, 7#64, BitVec.ofNat 64 (110000000 - off), 60000000000#64⟩
def syncOff (s : State) (m : PtpSync) : Int :=
  (s.time.ft.toNat : Int) - ((s.time.mono.toNat : Int) - m.arrival.toNat) - (m.origin.toNat + s.time.pathDelay)

theorem wit_ManagerTimeFollowsPtp_sync :
    (∀ m ∈ [MasterState.acquiring, .locked, .holdover, .suspect], ∀ off ∈ [0, 1000, 1001, 10000, 10001], ∀ r ∈ [14, 15],
      (mastering m r false).time.gm = some (sync off).gm ∧ (mastering m r false).ptpOurs (sync off).domain (sync off).transport = true ∧
      (mastering m r false).time.ftSet = true ∧
      syncOff (mastering m r false) (sync off) = off ∧ (mastering m r false).isManager = true) ∧
    ((mastering .locked 0 true).time.slewing = true ∧ worker.isManager = false ∧ worker.isDeputy = false ∧ worker.time.gm = some (sync 0).gm) := by
  decide +kernel

def announce (gm : BitVec 64) : PtpAnnounce := ⟨0#8, 1#2, gm, 128#8, 6#8, 0x21#8, 0#16, 128#8, 0#16, 0⟩

theorem wit_ManagerTimeFollowsPtp_rest :
    ((announce 7#64).gm ∈ serving.domain.gms ∧ (announce 8#64).gm ∉ serving.domain.gms ∧ serving.time.gm = some (⟨0#8, 1#2, 7#64, 0#64, 10#64⟩ : PtpDelay).gm ∧ serving.ptpOurs 0#8 1#2 = true ∧
      serving.ptpOurs 1#8 1#2 = false ∧ serving.time.delayReq ≠ some 0#64 ∧ serving.time.gm ≠ none) ∧
    ((mastering .locked 0 false).time.lastSync.toNat + 3 * (mastering .locked 0 false).annInterval ≤ (mastering .locked 0 false).time.mono.toNat ∧
      (mastering .locked 0 false).time.lastAnn.toNat + 3 * (mastering .locked 0 false).annInterval ≤ (mastering .locked 0 false).time.mono.toNat ∧
      (mastering .locked 0 false).isManager = true ∧ (mastering .locked 0 false).time.master = .locked) ∧
    ((mastering .suspect 0 false).time.master = .suspect ∧ (mastering .suspect 0 false).time.suspectAt = some 0#64 ∧
      (0#64 : Word64).toNat + 60000000000 ≤ (mastering .suspect 0 false).time.mono.toNat) := by decide +kernel

/-- The worker of the fabric, ALIGNED, its time as given. -/
def follower (f : TimeState → TimeState) : State := { worker with time := f worker.time }
/-- A time message on port 6, sent at `origin`, that arrived now. -/
def timeMsg (origin : Nat) : TimeMsg := ⟨6#5, 0#10, BitVec.ofNat 64 origin, 0#56, 500000000#64⟩
def timeOff (s : State) (m : TimeMsg) : Int :=
  (s.time.ft.toNat : Int) - (s.time.mono.toNat - m.arrival.toNat : Nat) - (m.origin.toNat + (m.correction.toNat + (s.port m.port.toNat).delayNs * 65536) / 65536 : Nat)

theorem wit_WorkersFollowFabricTime_message :
    (6 < worker.label.variant.ports ∧ worker.upstream = some 6 ∧ worker.upstream ≠ some 5 ∧ worker.time.ftSet = true ∧ worker.time.worker = .aligned ∧
      worker.time.ft = 110000000#64 ∧ worker.alignBound = 10 ∧ worker.isManager = false) ∧
    (∀ off ∈ [0, 10, 11, 10000, 10001], timeOff worker (timeMsg (110000000 - off)) = off) ∧ 7 ≤ (follower fun t => { t with awayRuns := 7 }).time.awayRuns ∧
    (follower fun t => { t with ftSet := false }).time.ftSet = false ∧ fabric.isManager = true ∧ fabric.time.ftSet = true ∧ fabric.time.worker ≠ .lost := by
  decide +kernel

/-- The manager with module 1 OFF-PLAN since stroke 4. -/
def offPlan : State := { fabric with ae := { fabric.ae with mods := [(1, { ModInfo.zero with offPlan := some 4#48 })] } }
/-- A twinned plate; port 15 leads to the twin. -/
def twinPlate : Plate :=
  { homePlate with admission := { homePlate.admission with twinned := 1#8 },
                   proof := { homePlate.proof with landingMib := 1#16, storeKey := keyHash 6#20736 } }
def pairing (f : TwinState → TwinState) : State := { fabric with boot := { fabric.boot with plate := some twinPlate }, twin := f fabric.twin }

theorem wit_WorkersFollowFabricTime_states :
    (1000000000 ≤ (follower fun t => { t with mono := 1000000000#64 }).time.mono.toNat - (follower fun t => { t with mono := 1000000000#64 }).time.lastTime.toNat ∧
      1000000 ≤ worker.time.mono.toNat - worker.time.lastTime.toNat ∧ worker.time.mono.toNat - worker.time.lastTime.toNat < 1000000000) ∧
    (offPlan.isManager = true ∧ (offPlan.info 1#10).offPlan = some 4#48 ∧ (offPlan.info 2#10).offPlan ≠ some 4#48 ∧ offPlan.time.worker ≠ .lost) ∧
    ((follower fun t => { t with worker := .offPlan, nearRuns := 64 }).time.worker = .offPlan) ∧
    ((pairing id).twinned = true ∧ (pairing id).twinUp = true) := by decide +kernel

/-- A delay request is out; a time message was sent 1 ms ago; the manager's succession is 3 ms old. -/
theorem wit_ManagerTimeFollowsPtp_delay :
    ({ serving with time := { serving.time with delayReq := some 0#64 } } : State).time.delayReq = some (⟨0#8, 1#2, 7#64, 0#64, 10#64⟩ : PtpDelay).sent ∧
    (serving.time.gm ≠ some (sync 0).gm ∨ serving.ptpOurs 1#8 1#2 = false) ∧ worker.isManager = false ∧ worker.isDeputy = false := by decide +kernel

theorem wit_WorkersFollowFabricTime_send :
    ({ fabric with time := { fabric.time with timeSent := some 499000000#64 } } : State).time.timeSent = some 499000000#64 ∧
    (499000000#64 : Word64).toNat + 125000 < 2 ^ 64 ∧ (499000000#64 : Word64).toNat + 125000 ≤ fabric.time.mono.toNat ∧
    (∃ j < 15, (offPlan.linkEntry (1#10 : BitVec 10).toNat j).state = 1#2 ∧ (offPlan.linkEntry (1#10 : BitVec 10).toNat j).width = 0#2) ∧
    (follower fun t => { t with ftSet := false }).portsTrained = true ∧ ({ worker with fab := State.reset.fab } : State).portsTrained = false := by decide +kernel

/-! ## The shared store -/

/-- The store association of a twinned module in a phase, two objects being fetched, a proof being put. -/
def storing (phase : Nat) : State :=
  { pairing id with trans := { fabric.trans with store := { fabric.trans.store with phase := phase, conn := 9#32, getting := [5#64, BitVec.ofNat 64 (2 ^ 63 + 5)],
                                                                                     putting := [(4#48, true)] } } }
/-- The store's answer under the key that the plate names and under another. -/
def storeHello (key : BitVec 20736) : HelloD := { helloD with pubKey := key }

theorem storeless (p : Option ProofRec) (k : BitVec 512) (h : (p.all fun q => q.storeKey = 0#512) = true) :
    (p.any fun q => q.storeKey = k && q.storeKey ≠ 0#512) = false := by
  cases p with
  | none => rfl
  | some q =>
    have e : q.storeKey = 0#512 := of_decide_eq_true h
    simp only [Option.any_some, e, ne_eq, not_true_eq_false, decide_false, Bool.and_false]

/-- Signatures and tags are uninterpreted: an answer under the right key falls under one of the two clauses by its signature, and a piece of a proof
whose tag is not what it should be is one of two pieces that differ in their tags alone. -/
theorem wit_StoreAnswersAreChecked :
    ((storing 1).trans.store.phase = 1 ∧ helloD.hdr.conn = (storing 1).trans.store.conn) ∧
    (Config.mldsaVerify 6#20736 (deviceBytes (handshakeHash (storing 1).storeHelloC (storeHello 6#20736))) helloD.sig = true ∨
      Config.mldsaVerify 6#20736 (deviceBytes (handshakeHash (storing 1).storeHelloC (storeHello 6#20736))) helloD.sig = false) ∧
    (serving.proofRec.any fun p => p.storeKey = keyHash 6#20736 && p.storeKey ≠ 0#512) = false ∧
    ((storing 2).trans.store.phase = 2 ∧ 5#64 ∈ (storing 2).trans.store.getting ∧ (5#64 : BitVec 64).getLsbD 63 = false ∧
      (0#64 : BitVec 64).toNat = ((storing 2).fetched 5#64).length ∧ ((storing 2).fetched 5#64).length + [1#8, 2#8].length < (3#64 : BitVec 64).toNat) ∧
    (BitVec.ofNat 64 (2 ^ 63 + 5) ∈ (storing 2).trans.store.getting ∧ (BitVec.ofNat 64 (2 ^ 63 + 5)).getLsbD 63 = true ∧
      ∃ tag : BitVec 128, (storing 2).proofTag (BitVec.ofNat 64 (2 ^ 63 + 5)) 0#64 2#64 [1#8, 2#8] ≠ tag) ∧
    ((storing 2).trans.store.putting.find? (fun q => (storing 2).proofName q.1.toNat = (storing 2).proofName 4) = some (4#48, true) ∧ (6#8 : BitVec 8) ≠ 0#8) := by
  refine ⟨by decide +kernel, ?_, ?_, by decide +kernel, ⟨by decide +kernel, by decide +kernel, ?_⟩, by decide +kernel⟩
  rotate_left
  · exact storeless _ _ (by decide +kernel)
  rotate_left
  · cases Config.mldsaVerify 6#20736 (deviceBytes (handshakeHash (storing 1).storeHelloC (storeHello 6#20736))) helloD.sig
    · exact .inr rfl
    · exact .inl rfl
  · generalize (storing 2).proofTag (BitVec.ofNat 64 (2 ^ 63 + 5)) 0#64 2#64 [1#8, 2#8] = t
    exact ⟨~~~t, by bv_omega⟩

/-! ## The tuning job -/

def jobTuning : Tuning :=
  { inst := 1#16, jobBase := 0#56, stepsMax := 10#32, rootEvery := 0#16, every1 := 2#16, every2 := 4#16, every3 := 0#16, groups := [], ranges := [], rsvd := false }
/-- Partition 0's cluster owner holds the job's stream (instance 1, PROGRAM 2). -/
def tuningPlate : Plate :=
  { plate with
    tuning := some jobTuning
    instances := [⟨0#16, 0#10, 0#10, 0#10, 16#13, false⟩, ⟨1#16, 0#10, 0#10, 0#10, 16#13, false⟩]
    programs := [⟨1#16, 2#2, 0#10, 0#4, 4#3, 0#56, [0#512], false⟩] }
def tuningOn (f : JobState → JobState) : State := { working with boot := { working.boot with plate := some tuningPlate }, job := f working.job }

/-- The job's owner at its first command, or its stream run to its end. -/
def stepping (phase : JobPhase) (ended : Bool) : State :=
  let part : Part := { Part.atReset with cc := { OwnerState.reset with job := { StreamPos.reset with inst := 1#16, prog := 2#2,
                                                                                                       headAt := if ended then none else some 0#64 } } }
  { tuningOn fun j => { j with phase := phase, step := 4, open_ := [(1, 2)] } with
    parts := Vector.replicate 16 part, twin := { working.twin with phase := .paired } }

theorem wit_JobStepsFollowTheirProofs_steps :
    ((tuningOn id).tuning = some jobTuning ∧ (tuningOn id).runsJob = true ∧ (tuningOn id).boot.standing = .serving ∧ (tuningOn id).inService = true ∧ (tuningOn id).job.phase = .off ∧
      ((tuningOn id).stream 0 .cc jobTuning.inst 2#2).isSome = true) ∧
    ((stepping .between true).job.phase = .between ∧ (stepping .between true).mayRelease = false ∧
      ({ stepping .between true with job := { (stepping .between true).job with open_ := [(1, 4)] } }).mayRelease = true) ∧
    ((stepping .running true).job.phase = .running ∧ (stepping .running true).jobStepDone jobTuning.inst = true ∧
      jobTuning.due 2 4 = true ∧ jobTuning.due 1 4 = true ∧ (stepping .running true).twin.phase = .paired ∧ 4 ≠ jobTuning.stepsMax.toNat) := by decide +kernel

theorem wit_JobStepsFollowTheirProofs_proofs :
    (((1#2 : BitVec 2).toNat, (2#32 : BitVec 32).toNat) ∈ (stepping .running true).job.open_) ∧
    ((stepping .waiting true).job.phase = .waiting ∧ (stepping .waiting true).runsJob = true ∧ (stepping .waiting true).inService = true ∧
      jobTuning.inst ∉ (stepping .waiting true).twin.holding ∧ jobTuning.inst ∉ (stepping .waiting true).twin.away ∧
      (stepping .waiting true).job.committed = [] ∧ bestProof [(1, 2), (2, 4)] = some (2, 4) ∧ bestProof [(1, 10)] = some (1, jobTuning.stepsMax.toNat)) := by
  decide +kernel

/-- A job that waits with a committed proof of layer 1, not yet asked back, and asked back. -/
def awaiting (f : Option (Nat × Bool)) : State :=
  let s := stepping .waiting true
  { s with job := { s.job with committed := [(1, 2)], open_ := [], fetch := f } }
theorem wit_JobStepsFollowTheirProofs_layer1 :
    (awaiting none).tuning = some jobTuning ∧ (awaiting none).job.phase = .waiting ∧ (awaiting none).runsJob = true ∧ (awaiting none).inService = true ∧
    jobTuning.inst ∉ (awaiting none).twin.holding ∧ jobTuning.inst ∉ (awaiting none).twin.away ∧ bestProof (awaiting none).job.committed = some (1, 2) ∧
    (awaiting none).twin.phase ≠ .unpaired ∧ (awaiting (some (2, false))).job.fetch = some ((2#48 : Stroke).toNat, false) ∧
    (awaiting (some (2, true))).job.fetch = some (2, true) := by decide +kernel

/-! ## Start -/

/-- A module whose plate's memory trains, and one that stands between its later steps. -/
def starting (step : Nat) (f : BootState → BootState) : State :=
  { fabric with boot := f { fabric.boot with standing := .starting, step := step }, time := { fabric.time with master := .acquiring, stroke := 0#48 } }
/-- The same on a plate that places no system block. -/
def training : State :=
  { serving with boot := { serving.boot with standing := .starting, step := 4 }, time := { serving.time with master := .acquiring, stroke := 0#48 } }
def noTenant : State := { training with sec := { training.sec with setup := { setup with tenant := 0#512 } } }

theorem verify_none (s : State) : s.verify none = .error 0x81 := by unfold State.verify; rfl
theorem verify_either (s : State) (p : Option Plate) : (∃ x, s.verify p = .ok x) ∨ ∃ e, s.verify p = .error e := by
  generalize s.verify p = v
  cases v with
  | ok x => exact .inl ⟨x, rfl⟩
  | error e => exact .inr ⟨e, rfl⟩

/-- No plate's signature evaluates, so a plate that verifies is not shown: a verification answers one of the two outcomes. -/
theorem wit_StartBringsThePlateIntoEffect_power :
    (∃ e, State.reset.verify none = .error e ∧ e < 0x89) ∧
    (∀ p : Plate, (∃ x, State.reset.verify (some p) = .ok x) ∨ ∃ e, State.reset.verify (some p) = .error e) :=
  ⟨⟨0x81, verify_none State.reset, by decide⟩, fun p => verify_either State.reset (some p)⟩

theorem wit_StartBringsThePlateIntoEffect_record :
    (State.reset.pwr.aux = true ∧ State.reset.pwr.good = false ∧ State.reset.pwr.grant = false ∧ State.reset.pwr.latch = false ∧
      State.reset.sec.destroyed = false ∧ State.reset.boot.record.pending = false ∧ State.reset.boot.record.active.toNat % 2 = 0) ∧
    ({ State.reset with boot := { BootState.reset with rec0 := some ⟨0#8, true, 0#64, 0#8, 0#8, 1#32⟩ } }).boot.record.pending = true := by
  decide +kernel

theorem wit_StartBringsThePlateIntoEffect_training :
    training.boot.standing = .starting ∧ training.boot.step = 4 ∧ training.boot.health = [] ∧
      (∀ p < 16, (training.part p).mapOuts = []) ∧ training.sec.setup.tenant ≠ 0#512 ∧ training.lostSystem = false ∧
      training.timeReady = false ∧ noTenant.sec.setup.tenant = 0#512 ∧ (⟨[1#4], []⟩ : TrainResult).failedParts ≠ [] := by
  decide +kernel

def joinRec : JoinRec := { side := false, module := 1#10, measure := homePlate.measure, capacity := 36, vacated := [], steppings := [] }
/-- The manager in step 8, every module's JOIN in. -/
def formsDir : State :=
  { starting 8 id with ae := { fabric.ae with mods := (List.range 8).map fun m => (m, { ModInfo.zero with joined := some { joinRec with module := BitVec.ofNat 10 m } }) } }
/-- The worker in step 8: its directory is final. -/
def joins (w : Plate → Plate) : State :=
  { worker with boot := { worker.boot with standing := .starting, step := 8, plate := some (w workerPlate) }, time := { worker.time with stroke := 0#48 } }
def object : ObjectEntry := ⟨0#512, 5#64, 8#64, 1#32, 1#4, false⟩

/-- A measurement does not evaluate: the module's own is one that agrees, and its complement one that does not. -/
theorem wit_JoinFormsTheDirectory :
    (fabric.isManager = true ∧ fabric.boot.plate = some homePlate ∧ joinRec.side = fabric.side ∧ fabric.time.worker ≠ .lost ∧
      homePlate.measure = joinRec.measure ∧ homePlate.measure ≠ ({ joinRec with measure := ~~~homePlate.measure } : JoinRec).measure) ∧
    ((joins id).boot.standing = .starting ∧ (joins id).boot.step = 8 ∧ (joins id).isManager = false) ∧
    (formsDir.isManager = true ∧ formsDir.boot.standing = .starting ∧ formsDir.boot.step = 8 ∧ formsDir.mem.formed = false ∧ formsDir.allJoined = true ∧
      formsDir.mem.gotBatch = [] ∧ formsDir.time.stroke.toNat < 2 ^ 48 - 1 ∧
      (∃ b e, SMap.find formsDir.placedAuth b = some e ∧ formsDir.joinVacated (dirModule e) (dirFrame e) = false)) ∧
    ((joins id).boot.plate = some workerPlate ∧ (joins id).directoryFinal = true ∧ (∀ o ∈ workerPlate.objects, ((joins id).goodObject o).isSome = true)) ∧
    ((joins fun p => { p with objects := [object] }).goodObject object = none ∧ (joins fun p => { p with objects := [object] }).hasStore = false ∧
      (joins fun p => { p with objects := [object], proof := { p.proof with storeKey := 7#512 } }).hasStore = true) := by
  refine ⟨⟨by decide +kernel, rfl, by decide +kernel, by decide +kernel, rfl, ?_⟩, by decide +kernel,
    ⟨by decide +kernel, by decide +kernel, by decide +kernel, by decide +kernel, by decide +kernel, by decide +kernel, by decide +kernel,
      ⟨1, dirMake false 0#10 10#20, by decide +kernel⟩⟩, ⟨rfl, by decide +kernel, fun o h => nomatch h⟩, by decide +kernel⟩
  show homePlate.measure ≠ ~~~homePlate.measure
  generalize homePlate.measure = m
  exact fun h => by simpa using congrArg (fun x => x.getLsbD 0) h

/-- The worker with everything loaded; it leads instance 0, which has two validation entries, the second to be answered with token 5. -/
def validRec : ValidRec := { seed := 0#64, inst := 0#16, cclass := 0#8, prompt := [1#32], output := 1#16, expected := [5#32], matchN := 1#16, rsvd := false }
def validates (entry : Nat) (ring : SMap RingEntry) : State :=
  { joins fun p => { p with validate := [validRec, validRec], instances := [⟨0#16, 1#10, 1#10, 1#10, 16#13, false⟩] } with
    boot := { (joins fun p => { p with validate := [validRec, validRec], instances := [⟨0#16, 1#10, 1#10, 1#10, 16#13, false⟩] }).boot with
      step := 9, loaded := true, valid := [(0, ⟨entry, some 1#32⟩)] }
    sess := { worker.sess with list := [{ session with port := 1#10, ring := ring, valid := some 0 }] } }
def out5 (token : BitVec 32) : SMap RingEntry := [(0, ⟨token, 0#32, 7#48, 0#4, true, false, false⟩)]
def served : State := { fabric with boot := { fabric.boot with standing := .starting, step := 10 } }

theorem wit_ServingFollowsValidation :
    ((validates 0 []).isManager = false ∧ (validates 0 []).boot.loaded = true ∧ (validates 0 []).boot.standing = .starting ∧ (validates 0 []).boot.step = 9 ∧
      0#16 ∈ (validates 0 []).ledInsts ∧ 0#16 ∉ (validates 0 []).twin.away ∧ (validates 0 []).validEntries 0#16 ≠ [] ∧
      ({ validates 0 [] with boot := { (validates 0 []).boot with plate := some { workerPlate with instances := [⟨0#16, 1#10, 1#10, 1#10, 16#13, false⟩] } } }).validEntries 0#16 = []) ∧
    (SMap.find (validates 0 []).boot.valid 0 = some ⟨0, some 1#32⟩ ∧ ((validates 0 []).session ⟨(validates 0 []).me, 1#32⟩).isSome = true ∧
      ((validates 0 []).validEntries 0#16)[0]? = some validRec ∧ ((validates 1 []).validEntries 0#16)[1]? = some validRec ∧
      ((validates 0 []).validEntries 0#16).length = 2) ∧
    (validEnded validRec (validOutputs [] 1 0) = false ∧ validEnded validRec (validOutputs (out5 5#32) 1 0) = true ∧
      validPasses validRec (validOutputs (out5 5#32) 1 0) = true ∧ validPasses validRec (validOutputs (out5 6#32) 1 0) = false) ∧
    (fabric.isManager = true ∧ fabric.boot.standing = .serving ∧ fabric.time.worker ≠ .lost ∧ served.boot.standing = .starting ∧ served.boot.step = 10 ∧
      served.boot.valid = [] ∧ served.boot.plate.isSome = true) := by decide +kernel

/-! ## The twin pair, takeover and detaching -/

/-- The manager of a twinned domain, joined, with its twin's port up. -/
def twins (f : TwinState → TwinState) : State :=
  { pairing f with ae := { fabric.ae with mods := [(0, { ModInfo.zero with joined := some { joinRec with module := 0#10 } })] } }
def pairRec (m : BitVec 512) (ft : Nat) : PairRec := ⟨m, BitVec.ofNat 64 ft, 0#8⟩

theorem differs (m : BitVec 512) : some m ≠ some (~~~m) := by
  intro h
  simpa using congrArg (fun x => x.getLsbD 0) (Option.some.inj h)

theorem wit_PairsFormAndPart :
    ((twins id).joinedNow = true ∧ (twins id).twinUp = true ∧ (twins id).twinned = true ∧ fabric.twinned = false ∧
      (twins id).boot.plate.map Plate.measure = some (pairRec twinPlate.measure 110000000).measure ∧
      ((twins id).twinOffset (pairRec 0#512 110000000).ft).natAbs ≤ (twins id).twinBound ∧
      (twins id).twinBound < ((twins id).twinOffset (pairRec 0#512 100000000).ft).natAbs ∧
      (twins id).boot.plate.map Plate.measure ≠ some (pairRec (~~~twinPlate.measure) 110000000).measure) ∧
    ((twins fun t => { t with ackSent := true }).twin.ackSent = true ∧ (twins fun t => { t with ackSent := true }).twin.holding = [] ∧
      (twins fun t => { t with ackSent := true }).twin.away = [] ∧ (twins fun t => { t with ackSent := true }).twin.twinPair ≠ 2#2 ∧
      (twins id).twin.ackSent = false) ∧
    ((twins id).boot.plate = some twinPlate ∧ (twins id).time.worker ≠ .lost) :=
  ⟨⟨by decide +kernel, by decide +kernel, by decide +kernel, by decide +kernel, rfl, by decide +kernel, by decide +kernel, differs twinPlate.measure⟩,
    by decide +kernel, rfl, by decide +kernel⟩

/-- A shadow session on the twin of this module, a commit open, a handover taken. -/
def lands (f : TwinState → TwinState) : State :=
  { twins fun t => f { t with phase := .paired, commits := [⟨4#48, 0#16, 1#32⟩] } with sess := { fabric.sess with shadow := [session] } }
def pieces (n : Nat) : List Granule := List.replicate n 0#1024

theorem wit_ProofsLandThenCommit :
    ((lands id).twinned = true ∧ (lands id).twin.phase ≠ .unpaired ∧ (lands id).landRoom (.data 4#48 0#16 0#56 (pieces 8)) = true ∧
      (pairing id).landRoom (.recs 4#48 0#16 []) = true) ∧
    (lands id).shadowOf 1#32 = some session ∧
    ((lands id).twin.handovers = [] ∧ (0#16 : BitVec 16) ≠ 0xFFFF#16 ∧ (∃ o ∈ (lands id).twin.commits, o.stroke = 4#48 ∧ o.inst = 0#16)) := by
  decide +kernel

/-- The twinned manager whose rings stand in block 1; a write of layer 1 and a token's go to its own frame. -/
def ringPlate : Plate := { twinPlate with hostports := twinPlate.hostports.map fun h => { h with ringBase := 0x200000#56 } }
def rings : State := { lands id with boot := { (lands id).boot with plate := some ringPlate } }
def shadowWrite : Packet := { rings.sysPacket 16384 0 (granuleBytes 5#1024) with cls := 3#2 }
def tokenWrite : Packet := { rings.sysPacket 16384 0 (leBytes 16 (ringEncode ⟨5#32, 0#32, 7#48, 0#4, false, false, false⟩)) with cls := 3#2 }

theorem wit_ProofsLandThenCommit_writes : rings.canonical ∧ rings.atHome shadowWrite 10 ∧ rings.atHome tokenWrite 10 ∧
    rings.ringBase rings.me = some 0x200000 ∧ 0x200000 % 128 = 0 ∧ (0x200000#56 : GAddr).toNat % 128 = 0 ∧ slotOfHandle 1#32 = 0 :=
  ⟨canonical_of _ (by decide +kernel), by unfold State.atHome; decide +kernel, by unfold State.atHome; decide +kernel, by decide +kernel⟩

/-- Captures of layer 1, waiting for COMMITTED, and of layer 2, closed; the handover of instance 0 at stroke 5. -/
def capture (layer : Nat) : Capture := { layer := layer, inst := 0#16, point := 4#48, stroke := 4#48, left := [], copied := [], recs := [], closed := true }
def captures (giving : Bool) : State := lands fun t => { t with captures := [capture 1, capture 2], handovers := [⟨0#16, 5#48, giving⟩] }

theorem wit_ProofsLandThenCommit_committed : (captures true).capture 1 0#16 4#48 = some (capture 1) ∧ (captures true).givesAfter 0#16 4#48 = true ∧
    (captures false).takingAt 0#16 4#48 = true ∧ (lands id).takingAt 0#16 4#48 = false ∧ (captures true).mem.waits = [] ∧
    (capture 2 ∈ (captures true).twin.captures ∧ (capture 2).layer = 2 ∧ (capture 2).closed = true ∧
      ∀ d ∈ (captures true).twin.captures, d.layer = 2 → d.inst = (capture 2).inst → d = capture 2) ∧
    (lands id).capture 1 0#16 9#48 = none ∧ (∀ o ∈ (lands id).twin.commits, o.stroke ≠ 9#48 ∨ o.inst ≠ 0#16) := by decide +kernel

/-- The twin side of a worker's takeovers; the failing side of one of instance 0. -/
def taking (w : List TakeoverState) : State :=
  { worker with boot := { worker.boot with plate := some { workerPlate with admission := twinPlate.admission } }, twin := { worker.twin with takeovers := w } }
def takeRec (fromSide : Bool) : TakeoverRec := ⟨[0#16], 4#48, fromSide⟩
def deputy : State := { worker with ae := { worker.ae with deputy := some 1#10 } }

theorem wit_TakeoversMoveInstances :
    ((taking []).twinned = true ∧ (takeRec false).fromSide = false ∧ (taking []).isManager = false ∧ (taking []).twin.takeovers = []) ∧
    ((pairing id).twinned = true ∧ (takeRec true).fromSide = true ∧ 0#16 ∈ (takeRec true).insts ∧ 0#16 ∈ (pairing id).instNums) ∧
    ((⟨[0#16], 3#48, 3#48, false, true⟩ : TakeoverState).entered = true ∧ (3#48 : Stroke).toNat + 1 ≤ (taking [⟨[0#16], 3#48, 3#48, false, true⟩]).su.doneWork.toNat) ∧
    (deputy.isDeputy = true ∧ deputy.isManager = false ∧ deputy.twin.succAt = none ∧ deputy.time.ftSet = true) ∧
    (fabric.boot.plate.isSome = true ∧ fabric.ae.manager ≠ 1#10 ∧ fabric.isManager = true ∧ worker.isManager = false ∧ worker.ae.manager ≠ 2#10) := by
  decide +kernel

/-- A suspended session here. -/
def gone : Session := { session with suspended := some (0#64, 9#4) }
def suspends (f : TwinState → TwinState) : State :=
  { pairing f with sess := { fabric.sess with list := [gone] }, ae := { fabric.ae with deputy := some 1#10 } }
def proofOf : SessionRec :=
  { seed := 0#64, first := 7#48, proof := 4#48, handle := 1#32, lp := 64#32, lo := 16#32, promptRcvd := 64#32, outNext := 2#32, commitEnd := 66#32, pageCount := 2#32,
    breaches := 0#32, ttft := 8#16, chunk := 64#16, endpoint := 0#8, cclass := 0#8, cadence := 1#8, grace := 0#8, shifts := 0#8, pageLog2 := 6#4, state := 2#4 }

theorem wit_HandoversRestoresAndDetaching :
    ((pairing id).twinned = true ∧ (pairing id).me ∈ (pairing id).instModules 0#16 ∧ (pairing id).twin.handovers = []) ∧
    ((suspends id).sess.list.find? (fun x => x.port = 0#10 && x.slot = (0#15 : BitVec 15).toNat && x.suspended.isSome && x.closing.isNone && x.handle = proofOf.handle) =
        some gone ∧ (suspends id).session gone.key = some gone ∧ (suspends id).inService = true ∧
      (∀ m ∈ (suspends id).instModules gone.inst, ((suspends id).info m).failed = false) ∧ (suspends id).storedFor 2 gone.key = none) ∧
    ((suspends id).sess.list.find? (fun x => x.port = (suspends id).me && x.slot = (0#15 : BitVec 15).toNat && x.suspended.isSome && x.closing.isNone) = some gone ∧
      gone.suspended = some (0#64, 9#4)) ∧
    (fabric.boot.standing = .serving ∧ fabric.twin.detaching = false ∧ fabric.twinned = false) ∧
    ((suspends fun t => { t with phase := .paired }).twinned = true ∧ (suspends fun t => { t with phase := .paired }).twin.phase = .paired ∧
      (suspends fun t => { t with phase := .paired }).twin.handovers = [] ∧ (suspends fun t => { t with phase := .paired }).isManager = true ∧
      (suspends fun t => { t with phase := .paired }).deputyToAsk = some 1#10 ∧ 0#16 ∈ (suspends id).instNums) := by decide +kernel

/-! ## Faults and recovery -/

/-- No slot holds a plate that verifies, and the signer's key of one that does not is a hash that does not evaluate: the error of such a slot is 0x82 for
a plate whose signer's key hashes to another value. -/
theorem verify_signer (s : State) (p : Plate) (h : headerOk p.header = true ∧ keyHash p.signer ≠ s.signer p) : s.verify (some p) = .error 0x82 := by
  unfold State.verify
  simp only [h.1, Bool.not_true, Bool.false_eq_true, if_false, ne_eq, h.2, not_false_eq_true, decide_true, Bool.true_or, if_true]

/-- A module whose plate signer is not the one that signed the plate in slot 0. -/
def headPlate : Plate := { plate with header := { plate.header with magic := 0x505A4B53#32, format := 1#16, sections := 1#16, length := 8192#32, sigOffset := 3456#32 } }
def badSlot : State :=
  { fabric with boot := { fabric.boot with slot0 := some headPlate }, sec := { fabric.sec with setup := { setup with plateSigner := ~~~keyHash headPlate.signer } } }

theorem wit_BeatsAndFailuresAreNoted_verify : badSlot.verify badSlot.boot.slot0 = .error 0x82 := by
  refine verify_signer badSlot headPlate ⟨by decide +kernel, ?_⟩
  show keyHash headPlate.signer ≠ if ~~~keyHash headPlate.signer = 0#512 then 1#512 else ~~~keyHash headPlate.signer
  generalize keyHash headPlate.signer = k
  intro h
  split at h
  · rename_i e
    exact absurd (e.symm.trans (congrArg (fun x => ~~~x) h)) (by decide +kernel)
  · simpa using congrArg (fun x => x.getLsbD 0) h

/-- Module 1 as failed, as its manager knows it. -/
def failedOne : State := { fabric with ae := { fabric.ae with mods := [(1, { ModInfo.zero with failed := true })] } }

theorem wit_BeatsAndFailuresAreNoted :
    ((badSlot.part 0).reset = none ∧ badSlot.boot.standing ≠ .auxOnly ∧ badSlot.sec.destroyed = false ∧ badSlot.boot.record.pending = false ∧
      badSlot.boot.record.active.toNat % 2 = 0) ∧
    (fabric.boot.plate.isSome = true ∧ fabric.isManager = true ∧ worker.isManager = false ∧ (fabric.info 1#10).failed = false ∧
      (failedOne.info 1#10).failed = true ∧ (∃ c, wholeModule c = true)) ∧
    (0#16 ∈ working.instNums ∧ (0#16, working.su.work) ∉ working.su.restore ∧ (0#16, working.su.work) ∉ working.su.doomed ∧ 0#16 ∉ working.su.failed) := by
  refine ⟨by decide +kernel, ⟨by decide +kernel, by decide +kernel, by decide +kernel, by decide +kernel, by decide +kernel, ⟨FailCause.missedBeats, rfl⟩⟩, by decide +kernel⟩

/-- The manager of a PAIRED twinned domain can order a takeover; a module without twin cannot. -/
theorem wit_BeatsAndFailuresAreNoted_orders :
    (fabric.canOrder (fabric.concerned 1#10 .missedBeats) = false) ∧ ({ badSlot with sec := { badSlot.sec with destroyed := false } }).sec.destroyed = false ∧
    ((badSlot.part 0).beatAt.toNat + 8000000 < 2 ^ 64) ∧ ((serving.info 1#10).failed = false) ∧ working.isManager = true ∧
    (1#16 ∉ working.instNums ∧ working.su.work.toNat < (6#48 : Stroke).toNat ∧ (5#48 : Stroke).toNat ≤ working.su.work.toNat) ∧
    (formsDir.info 1#10).joined.isSome = true ∧ (pairing id).twinned = true ∧ worker.twinned = false := by decide +kernel

/-- Partition 0 with an array reset of its engine 0 running; in reset; with block 5, of the session state, held here until it is rewritten. -/
def engineResets : State := on0 fabric fun x => { x with engResets := [⟨0, 0#64, false⟩] }
def partitionResets (warm : Option Bool) : State := on0 fabric fun x => { x with reset := some ⟨0#64, warm⟩ }
def heldBlock : State :=
  { fabric with
    boot := { fabric.boot with plate := some { homePlate with placement := ⟨5#32, 1#32, 0#10, 0#10, 14#20, 4#4, false, 0#16, false⟩ :: homePlate.placement } }
    mem := { fabric.mem with held := [1] } }

theorem wit_ResetsStopAndReturn :
    ((fabric.part 0).reset = none ∧ resetCodes 0 ≠ [] ∧ resetCodes 0x20 ≠ [] ∧ testable 0 = true ∧ 0 ∉ (fabric.part 0).testFails ∧ 4 ≤ fabric.boot.step ∧
      (engineResets.part 0).engResets.find? (fun r => r.engine = (0#8 : BitVec 8).toNat) = some ⟨0, 0#64, false⟩) ∧
    ((partitionResets none).part 0).reset = some ⟨0#64, none⟩ ∧
    (((partitionResets (some true)).part 0).reset = some ⟨0#64, some true⟩ ∧ 4 ≤ (partitionResets (some true)).boot.step ∧
      (partitionResets none).mem.migs = [] ∧ ((partitionResets none).part 0).evacuation = none) ∧
    ((1#32 : BitVec 32).toNat ∈ heldBlock.mem.held ∧ heldBlock.homeOf 1 = some (heldBlock.me, 10) ∧ heldBlock.frameHeld 10 = false ∧ heldBlock.useOf 1 = 4 ∧
      heldBlock.mem.waits = []) := by decide +kernel

theorem wit_DeviceResetAndTeardownForget :
    (fabric.boot.standing ≠ .auxOnly ∧ fabric.sec.destroyed = false ∧ State.reset.boot.standing = .auxOnly) ∧
    (fabric.boot.plate.isSome = true ∧ fabric.su.teardown = none ∧ fabric.boot.standing ≠ .teardown ∧ fabric.isManager = true ∧
      fabric.time.worker ≠ .lost ∧ fabric.others ≠ [] ∧ fabric.time.stroke.toNat < (6#48 : Stroke).toNat ∧ (5#48 : Stroke).toNat ≤ fabric.time.stroke.toNat) := by
  decide +kernel

/-- A data section that covers block 3; partition 0 in a cold reset whose clocks do not overflow. -/
theorem wit_ResetsStopAndReturn_bounds :
    ((partitionResets (some false)).part 0).reset = some ⟨0#64, some false⟩ ∧
    (0#64 : Word64).toNat + 1900000000 + repairTime ((partitionResets (some false)).pendingRepairs 0) < 2 ^ 64 ∧
    (0 ∉ (fabric.part 0).testFails ∧ ((on0 fabric fun x => { x with testFails := [0] }).part 0).testFails = [0]) ∧ testable 0x20 = false ∧
    resetCodes 6 = [] ∧ heldBlock.dataCovers 1 = false ∧ heldBlock.useOf 1 ≠ 7 ∧
    (fabric.placeOfGranule 10 0).map (·.part) = some 0 := by decide +kernel

theorem wit_DeviceResetAndTeardownForget_lost : (5#10 : BitVec 10).toNat ∉ fabric.mem.lost ∧
    (5#10 : BitVec 10).toNat ∈ ({ fabric with mem := { fabric.mem with lost := [5] } } : State).mem.lost := by decide +kernel

/-! ## Power, temperature and the sideband -/

/-- The module's power controller with its last averages, in 0.1 W, at a stage. -/
def powered (n avg stage : Nat) (warning : Bool) : State :=
  { serving with pwr := { serving.pwr with aux := true, avgs := List.replicate n avg, pstage := stage, warning := warning } }
def reading (p : Nat) : PowerReading := ⟨BitVec.ofNat 16 p, 48000#16, 200#16, 3300#16, 10#16⟩
/-- Over a limit, below both, and between, with the reading taken in. -/
def risesAt (s : State) (r : PowerReading) : Prop :=
  let a := (r.power.toNat :: s.pwr.avgs).take 1000
  (a.take 100).length * (10 * s.domain.powerLimit.toNat + 1000) < (a.take 100).sum ∨ a.length * (10 * s.domain.powerLimit.toNat) < a.sum
def fallsAt (s : State) (r : PowerReading) : Prop :=
  let a := (r.power.toNat :: s.pwr.avgs).take 1000
  (a.take 100).sum ≤ (a.take 100).length * (10 * s.domain.powerLimit.toNat + 500) ∧ a.sum ≤ a.length * (10 * s.domain.powerLimit.toNat - 250)

theorem wit_StagesFollowPowerAndHeat_power :
    ((powered 9 9500 3 false).pwr.aux = true ∧ (powered 9 9500 3 false).pwr.rails = true ∧ (powered 9 9500 3 true).pwr.warning = true) ∧
    risesAt (powered 9 9500 3 false) (reading 9501) ∧ ¬ risesAt (powered 9 9500 3 false) (reading 9500) ∧ ¬ fallsAt (powered 9 9500 3 false) (reading 9500) ∧
    fallsAt (powered 9 9250 3 false) (reading 9250) ∧ ¬ risesAt (powered 9 9250 3 false) (reading 9250) ∧
    ((powered 9 9501 6 false).pwr.pstage = 6 ∧ (powered 9 9501 6 false).over10s = true) := by
  unfold risesAt fallsAt
  decide +kernel

def atTen (off : Nat) : State := { serving with time := { serving.time with ft := BitVec.ofNat 64 (110000000 + off) } }

theorem wit_StagesFollowPowerAndHeat_heat :
    ((atTen 0).pwr.rails = true ∧ ((atTen 0).reachGrid ((atTen 0).nextGrid 1000000 (atTen 0).pwr.heatAt)).gridTime % 10000000 = 0 ∧
      ((atTen 1).reachGrid ((atTen 1).nextGrid 1000000 (atTen 1).pwr.heatAt)).gridTime % 10000000 ≠ 0) ∧
    ((∃ x ∈ ([200, 150] : List Int).take (atTen 0).label.variant.parts, 200 ≤ x) ∧ (∀ x ∈ ([189] : List Int).take (atTen 0).label.variant.parts, x < 190) ∧
      (∀ x ∈ ([190, 199] : List Int).take (atTen 0).label.variant.parts, x < 200) ∧ (∃ x ∈ ([190, 199] : List Int).take (atTen 0).label.variant.parts, 190 ≤ x)) := by
  decide +kernel

def warned : State := { serving with pwr := { serving.pwr with warning := true, open_ := [⟨5#8, 0xFF#8, 0#64, 0#64, 0#8⟩] } }
def latched (n : Nat) : State := { State.reset with pwr := { State.reset.pwr with latch := true, tripTimes := List.replicate n 0#64 } }

theorem wit_SupplyEventsSwitchTheModule :
    (serving.pwr.rails = true ∧ serving.pwr.warning = false ∧ (43999#17 : BitVec 17).toNat < 44000 ∧ 44000 ≤ (44000#17 : BitVec 17).toNat ∧
      warned.pwr.rails = true ∧ warned.pwr.warning = true ∧ (∃ o ∈ warned.pwr.open_, o.reason = 5#8) ∧
      60000 < (60001#17 : BitVec 17).toNat ∧ (60000#17 : BitVec 17).toNat ≤ 60000) ∧
    ((powered 0 0 0 false).pwr.aux = true ∧ (powered 0 0 0 false).pwr.rails = true ∧ (latched 2).pwr.latch = true ∧ (latched 2).pwr.tripTimes.length < 3 ∧
      3 ≤ (latched 3).pwr.tripTimes.length ∧ ({ State.reset with pwr := { State.reset.pwr with aux := false } }).pwr.aux = false ∧ State.reset.pwr.aux = true) ∧
    (∀ o ∈ [AuxOut.host, .tracing, .fabric 0], serving.outExists o = true ∧ o ∉ serving.pwr.outOff) := by decide +kernel

theorem wit_SidebandAnswersItsContent :
    (State.reset.pwr.aux = true ∧ State.reset.pwr.pstage ≤ 6 ∧ State.reset.pwr.tstage ≤ 4 ∧ State.reset.alertLow = false ∧ (latched 1).alertLow = true ∧
      smbListed 0x11#8 = false ∧ smbListed 0x10#8 = true ∧ SmbProto.writeByte ≠ .readReserved) ∧
    (serving.boot.standing = .serving ∧ training.boot.standing = .starting ∧ State.reset.boot.standing ≠ .serving ∧ State.reset.boot.standing ≠ .starting) := by
  decide +kernel

/-! ## The whole machine -/

def smaller (v : Variant) : State := { State.reset with label := { State.reset.label with variant := v } }

theorem wit_CommandsNameWhatExists : (smaller .m12).label.variant.parts ≤ (12#4 : BitVec 4).toNat ∧ State.reset.label.variant.ports ≤ (16#5 : BitVec 5).toNat ∧
    48 * State.reset.label.variant.stacks ≤ (576#10 : BitVec 10).toNat ∧ State.reset.label.variant.linkDies ≤ (7#3 : BitVec 3).toNat ∧
    (0#5 : BitVec 5).toNat < State.reset.label.variant.ports := by decide +kernel

/-- A heartbeat of partition 0 in the queue. -/
def queueing : State := { State.reset with pending := [.heartbeat 0#4] }

theorem wit_CommandsKeepLabelAndQueue : ∃ t, exec (.heartbeat 0#4) queueing = .next t :=
  ⟨_, inPart_next (s := queueing) (p := 0) _ (by decide +kernel)⟩

theorem wit_StepsKeepMemoriesCanonical : fabric.canonical ∧ fabric.pending = [] ∧ ∃ t, step fabric = .next t :=
  ⟨canonical_of _ (by decide +kernel), by decide +kernel, _, rfl⟩

end Sys2Proof.Tests
end

