-- ==== Sys2Proof/Tests/Slice0.lean ====
section
/-! SUPPORT. Tests/Slice0.lean: the smoke test of WellFormed, with an ill-formed command for each check, and tests of single operations on the spec's
worked examples and tables. The expected values are the spec's own; each test names where they stand. The witnesses of the statements stand in
the other files of Tests/. -/
namespace Sys2Proof.Tests
open Sys2Proof.Machine
set_option Elab.async false

/-! ## WellFormed: one ill-formed command for each check -/

/-- An issue with its header or stream changed. -/
def issH (o : Owner) (engine : BitVec 8) (f : CmdHdr → CmdHdr) : Issue := { iss o engine with hdr := f (hdr engine) }
def pkt (type : BitVec 8) (n : Nat) : Packet := req type 0#56 0#120 (List.replicate n 0#1024)
def astPkt (ptype : BitVec 4) (msgs : List Msg) : AstPkt := ⟨astHdr ptype 1#64, msgs, 0#128, addr⟩

/-- Every command of a list is refused. -/
def refuses (l : List Instr) : Bool := l.all fun c => !c.wellFormed

theorem test_wf_accepts : ([.nop (iss .cc 0x21#8), .mmul (iss (.csq 1) 8#8) matOps, .fadd (iss (.csq 0) 4#8) vecOps, .dcopy (iss .cc 0x21#8) deOps,
    .cinv (iss .cc 0x22#8) deOps, .brs (iss (.csq 2) 0x15#8) ctlOps, .rowloop (iss .cc 0x20#8) ctlOps, .rd ⟨pkt 1#8 0, inSeq⟩ [], .wr ⟨pkt 2#8 8, inSeq⟩,
    .invalidOpcode 0x300#512, .ack (astPkt 6#4 []), .close 0#8 (msg 6#8 1#32 0 0), .engineReset 0#4 0x21#8] : List Instr).all Instr.wellFormed = true := by
  decide +kernel

theorem test_wf_issue : refuses [.nop { iss .cc 0x21#8 with prog := 3#2 }, .nop (issH .cc 0x21#8 fun h => { h with timeout := 0#24 }),
    .nop (issH .cc 0x21#8 fun h => { h with cls := 6#4 }), .nop (issH .cc 0x21#8 fun h => { h with srcfmt := 0xB#4 }),
    .nop (issH .cc 0x21#8 fun h => { h with dstfmt := 0xB#4 }), .nop (iss .cc 0x23#8), .nop (iss .cc 6#8), .commandTimeout { iss .cc 0x21#8 with prog := 3#2 },
    .streamLimitExceeded { iss .cc 0x21#8 with prog := 3#2 }, .class5Issue (iss .cc 0x21#8)] = true := by decide +kernel

theorem test_wf_matrix : refuses [.mload (iss .cc 0#8) matOps, .mload (iss (.csq 1) 0#8) matOps, .mmul (iss (.csq 0) 4#8) matOps,
    .mmul (iss (.csq 0) 0#8) { matOps with gang := 4#4 }, .mdrain (iss (.csq 0) 0#8) { matOps with acc := 2#2 }] = true := by decide +kernel

theorem test_wf_vector : refuses [.fadd (iss (.csq 0) 0#8) vecOps, .topk (iss (.csq 1) 4#8) vecOps, .sel (iss (.csq 0) 4#8) { vecOps with count := 0#16 }] = true := by
  decide +kernel

theorem test_wf_dma : refuses [.dcopy (iss .cc 0x22#8) deOps, .dwalk (issH .cc 0x21#8 fun h => { h with srcfmt := 1#4 }) deOps,
    .demit (issH .cc 0x21#8 fun h => { h with dstfmt := 1#4 }) deOps, .cinv (iss .cc 0x21#8) deOps] = true := by decide +kernel

theorem test_wf_control : refuses [.brs (iss .cc 0x05#8) ctlOps, .brs (iss .cc 0x20#8) { ctlOps with cond := 8#4 }, .brs (iss .cc 0x20#8) { ctlOps with kind := 3#4 },
    .jump (iss (.csq 0) 0x0D#8) ctlOps, .rowloop (iss .cc 0x20#8) { ctlOps with body := 0#16 }, .rowloop (iss .cc 0x20#8) { ctlOps with body := 256#16 },
    .waitphase (iss .cc 0x20#8) { ctlOps with phase := 3#4 }, .streamEnd (issH .cc 0x20#8 fun h => { h with srcfmt := 1#4 }) ctlOps,
    .invalidOpcode 1#512, .commandCompletion 0#4 0x20#8 ⟨1#8, ⟨0#32, []⟩, []⟩, .commandCompletion 0#4 5#8 ⟨1#8, ⟨0#32, []⟩, []⟩] = true := by decide +kernel

theorem test_wf_stroke : refuses [.slackSelfTest [⟨0#4, 0x20#8, true⟩] [], .slackSelfTest [] (List.replicate 17 0#10),
    .batchTableReceive ⟨5#48, 0#16, false, [row 5#8]⟩, .twinState ⟨0#64, 0#32, 3#2, 0#2⟩] = true := by decide +kernel

theorem test_wf_packets : refuses [.rd ⟨pkt 2#8 0, inSeq⟩ [], .rd ⟨pkt 1#8 1, inSeq⟩ [], .wr ⟨pkt 2#8 0, inSeq⟩, .wr ⟨pkt 2#8 9, inSeq⟩, .mwr ⟨pkt 3#8 1, inSeq⟩ [], .atom ⟨pkt 4#8 2, inSeq⟩ [], .sig ⟨pkt 5#8 1, inSeq⟩,
    .resp ⟨pkt 8#8 9, inSeq, []⟩, .plan ⟨pkt 0x10#8 0, inSeq⟩, .late ⟨pkt 0x10#8 1, inSeq⟩, .reservedPacketType ⟨pkt 0x20#8 0, inSeq⟩, .credit 0#5 0#2 0#3 0#32,
    .directoryUpdateBatch 0#32 ⟨[⟨5#48, 3#8, 1#32, 0#10, 0#20⟩], []⟩, .freezeQueueReceive 1#32 [⟨0x200001#56, 0#1024⟩] false [],
    .freezeQueueReceive 1#32 [⟨0x400000#56, 0#1024⟩] false []] = true := by decide +kernel

theorem test_wf_transport : refuses [.helloC { helloC with hdr := astHdr 2#4 0#64 }, .helloD { helloD with hdr := astHdr 1#4 0#64 },
    .finish ⟨astHdr 1#4 0#64, 4627, 0#37016, addr⟩, .data (astPkt 6#4 []), .ack (astPkt 5#4 []), .ack (astPkt 6#4 [msg 6#8 1#32 0 0]), .bye (astPkt 6#4 []),
    .bye (astPkt 7#4 [msg 6#8 1#32 0 0]), .reservedAstPacket (astHdr 5#4 0#64), .resumePacket (astPkt 6#4 []), .openMsg 0#8 (msg 2#8 0#32 0 0),
    .openMsg 0#8 ⟨1#8, 0#8, 4#16, 0#32, []⟩, .prompt 0#8 (msg 1#8 0#32 0 0), .close 0#8 (msg 1#8 0#32 0 0), .queryStatus 0#8 (msg 1#8 0#32 0 0),
    .queryResend 0#8 (msg 1#8 0#32 0 0), .queryEndpoint 0#8 (msg 1#8 0#32 0 0), .observeCounters 0#8 (msg 1#8 0#32 0 0), .observeAttestation 0#8 (msg 1#8 0#32 0 0),
    .observeAlarms 0#8 (msg 1#8 0#32 0 0), .dump 0#8 (msg 1#8 0#32 0 0), .snapshot 0#8 (msg 1#8 0#32 0 0), .reservedMessageType 0#8 (msg 0xF#8 0#32 0 0)] = true := by
  decide +kernel

theorem test_wf_recovery : refuses [.twinData 4#48 0#16 0#56 [], .twinData 4#48 0#16 0#56 (pieces 9), .twinData 4#48 0#16 1#56 (pieces 1), .twinRecord 4#48 0#16 [],
    .twinRecord 4#48 0#16 (List.replicate 17 proofOf), .jobProofCommit 0#2 1#32, .engineReset 0#4 6#8, .engineResetBound 0#4 0x23#8, .selfTestRequest 0#4 0x20#8,
    .selfTestRequest 0#4 6#8, .selfTestFail 0#4 0x21#8, .selfTestFail 0#4 7#8] = true := by decide +kernel

theorem test_wf_limits (block : BitVec 32) (bytes : List Byte) (h : 2097152 < bytes.length) (s : Stroke) (i : BitVec 16) (r : BatchRow) :
    (Instr.coldRewrite block bytes).wellFormed = false ∧ (Instr.batchTableReceive ⟨s, i, false, List.replicate 4097 r⟩).wellFormed = false := by
  refine ⟨by simp only [Instr.wellFormed, decide_eq_false_iff_not]; omega, ?_⟩
  simp only [Instr.wellFormed, List.length_replicate]
  rfl

/-! ## Numbers (spec/05, spec/06) -/

/-- Table 5.4 and R132: 1.0 + 2.0 = 3.0; ∞ − ∞ is the default NaN and counts as invalid. -/
theorem test_fadd : (fAdd 0x3F800000#32 0x40000000#32).val = 0x40400000#32 ∧ (fAdd 0x7F800000#32 0xFF800000#32).val = 0x7FC00000#32 ∧
    (fAdd 0x7F800000#32 0xFF800000#32).st.invalid = 1 := by decide +kernel
/-- 0 × ∞ is invalid; a product below the least subnormal goes to zero. -/
theorem test_fmul : (fMul 0#32 0x7F800000#32).val = 0x7FC00000#32 ∧ (fMul 0x00000001#32 0x00000001#32).val = 0#32 := by decide +kernel
/-- The square root of a negative number is invalid; that of 4.0 is 2.0. -/
theorem test_fsqrt : (fSqrt 0xC0800000#32).val = 0x7FC00000#32 ∧ (fSqrt 0x40800000#32).val = 0x40000000#32 := by decide +kernel
/-- spec/06's guarded softmax: the padded elements −∞ become +0 under FEXP and stay +0 under FDIV. -/
theorem test_softmax_padding : (fExp 0xFF800000#32).val = 0#32 ∧ (fDiv 0#32 0x40000000#32).val = 0#32 ∧ (fSub 0xFF800000#32 0xFF800000#32).val = 0x7FC00000#32 := by
  decide +kernel
/-- Table 5.2: the largest finite E4M3 value is 448, and the largest E2M1 value 6. -/
theorem test_mx_largest : (toF32 1 127 0x7E).val = 0x43E00000#32 ∧ (toF32 5 127 0x7).val = 0x40C00000#32 := by decide +kernel
/-- The known answer of Philox4x32-10 for the counter 0 and the key 0 (PRESUMED: the generator's published test vector). -/
theorem test_philox : philoxRounds 10 (0#32, 0#32, 0#32, 0#32) 0#32 0#32 = (0x6627E8D5#32, 0xE169C58D#32, 0xBC57AC4C#32, 0x9B00DBD8#32) := by decide +kernel

/-! ## Places and addresses (spec/08, spec/09, spec/10) -/

/-- spec/09's worked example: the second of four spreads, frame 115,440, granule 7,777. -/
def secondSpread : Spread := ⟨114440#32, 114440#32, 0#32, 0x00F0#16, false⟩
theorem test_place : secondSpread.place 36 115440 7777 = ⟨7, 5, 113831⟩ ∧ rowBankCol 113831 = (444, 10, 7) ∧ subGlobal .a16 7 5 = 257 ∧
    subStack 257 = (5, 17) := by decide +kernel
/-- The same granule after local subchannel 5 of P7 is mapped out, the first there: local subchannel 12, offset 12,652,402. -/
theorem test_map_out : patchBase 36 1 = 12649150 ∧ relocate 36 [5] 1 113831 = (12, 12652402) ∧ rowBankCol 12652402 = (49423, 7, 2) ∧
    subGlobal .a16 7 12 = 264 ∧ subStack 264 = (5, 24) := by decide +kernel
/-- spec/10's worked example: the directory entry of module 5, frame 70,000. -/
theorem test_directory_entry : dirMake false 5#10 70000#20 = 0x80511170#32 := by decide +kernel
/-- spec/08's worked example: the storage of one Pewter-277 session. -/
def pewter : KvGeom := { layers := 104, heads := 14, pg := 256, rate := 1, reps := 4, alloc := 128 }
theorem test_session_footprint : pewter.pageBytes = 13418496 ∧ stagingCap 256 256 = 512 ∧ pewter.stagingBytes 512 = 381681792 ∧ pewter.q = 512 ∧
    pewter.sketchBytes = 9344 ∧ 104 * 14 * pewter.sketchBytes = 13604864 := by decide +kernel
/-- Representative 2 of page 113: its position-3 code and its gain in the sketch slab. -/
theorem test_sketch_offsets : pewter.sketchCode 113 2 3 = 2118 ∧ pewter.sketchGain 113 2 = 9228 := by decide +kernel

/-! ## Routes (spec/12) -/

/-- spec/12's worked example: from module 17 to module 300 of 512. -/
theorem test_route : minimalPort 64 17 17 300 = 2 ∧ neighbour 512 17 2 = some (20, 4) ∧ minimalPort 64 20 17 300 = 9 ∧ neighbour 512 20 9 = some (299, 11) ∧
    minimalPort 64 299 17 300 = 0 ∧ neighbour 512 299 0 = some (300, 6) := by decide +kernel
/-- The detour over FP7 of module 20. -/
theorem test_detour : neighbour 512 20 7 = some (283, 13) ∧ minimalPort 64 283 17 300 = 4 ∧ neighbour 512 283 4 = some (280, 2) ∧
    minimalPort 64 280 17 300 = 8 ∧ neighbour 512 280 8 = some (303, 12) ∧ minimalPort 64 303 17 300 = 4 := by decide +kernel

/-! ## Admission and transport (spec/13, spec/14) -/

/-- spec/13's worked example: chunks of 128 of a prompt of 6,144; the charges of an odd chunk. -/
def twoRecoveries : ClassEntry :=
  { promptMax := 24576#32, outputMax := 8192#32, inst := 0#16, cadenceMin := 1#8, cadenceMax := 8#8, graceMin := 0#8, recovery := 2#8, draftsMax := 0#8,
    rate := 0#2, chunkMin := 128#16, chunkMax := 1024#16, rsvd := false }
/-- PREFILL 18.75 µs a token and SEAL 240 µs in every bucket. -/
def pewterCosts : AdmRec :=
  ⟨cost, 0#32, 0#32, 0#16, List.replicate 48 cost ++ List.replicate 24 ⟨18750#32, 0#32, 0#32, 0#32⟩ ++ List.replicate 48 cost ++
    List.replicate 24 ⟨240000#32, 0#32, 0#32, 0#32⟩ ++ List.replicate 24 ⟨10000#32, 0#32, 0#32, 0#32⟩, false⟩
theorem test_admission_charges : chunks 6144 128 = 48 ∧ (prefillCharges pewterCosts twoRecoveries false 256 128 128 128).firm.time = 2640000 ∧
    (prefillCharges pewterCosts twoRecoveries false 256 128 128 0).firm.time = 2400000 ∧
    (prefillCharges pewterCosts twoRecoveries false 256 128 128 128).replay.time = 4800000 ∧
    (prefillCharges pewterCosts twoRecoveries false 256 128 128 128).soft.time = 10000 := by decide +kernel
/-- spec/14's worked example: the handle's slot, and the nonce of the TOKENS packet. -/
theorem test_handle_and_nonce : slotOfHandle 0x02460007#32 = 0x123 ∧
    leBytes 12 (astNonce 1 0x0000020000000001#64) = [0x01#8, 0#8, 0#8, 0#8, 0x01#8, 0#8, 0#8, 0#8, 0#8, 0x02#8, 0#8, 0#8] := by decide +kernel

end Sys2Proof.Tests
end

/-! ## Subchannels and their owners (spec/01, R15, R20) -/

namespace Sys2Proof.Machine

/-- The division and the remainder of R20 are by a positive number. -/
theorem Variant.subs_pos (v : Variant) : 0 < v.subs := by cases v <;> decide

/-- The partitions share out the 48 subchannels of every stack and leave none over: the count that R20 rests on. -/
theorem Variant.subs_mul_parts (v : Variant) : v.subs * v.parts = 48 * v.stacks := by cases v <;> rfl

/-- Every subchannel of the module has its owner among the module's partitions. -/
theorem subOwner_part_lt {v : Variant} {g : Nat} (hg : g < 48 * v.stacks) : (subOwner v g).1 < v.parts :=
  Nat.div_lt_of_lt_mul (v.subs_mul_parts.symm ▸ hg)

@[simp] theorem subGlobal_subOwner (v : Variant) (g : Nat) : subGlobal v (subOwner v g).1 (subOwner v g).2 = g :=
  Nat.div_add_mod g v.subs

@[simp] theorem subOwner_subGlobal {v : Variant} {j : Nat} (p : Nat) (hj : j < v.subs) : subOwner v (subGlobal v p j) = (p, j) := by
  have hpart : (v.subs * p + j) / v.subs = p := by
    rw [Nat.mul_add_div v.subs_pos, Nat.div_eq_of_lt hj, Nat.add_zero]
  have hlocal : (v.subs * p + j) % v.subs = j := by
    rw [Nat.mul_add_mod, Nat.mod_eq_of_lt hj]
  exact Prod.ext hpart hlocal

/-- A local subchannel of a partition is a subchannel of the module's stacks. -/
theorem subGlobal_lt {v : Variant} {p j : Nat} (hp : p < v.parts) (hj : j < v.subs) : subGlobal v p j < 48 * v.stacks :=
  calc v.subs * p + j
    _ < v.subs * (p + 1) := Nat.add_lt_add_left hj _
    _ ≤ v.subs * v.parts := Nat.mul_le_mul_left _ hp
    _ = 48 * v.stacks := v.subs_mul_parts

/-- The stack of a subchannel is one of the module's stacks. -/
theorem subStack_stack_lt {v : Variant} {g : Nat} (hg : g < 48 * v.stacks) : (subStack g).1 < v.stacks :=
  Nat.div_lt_of_lt_mul hg

/-- R18, for every port number: the only twin ports are those of the variant. -/
theorem Variant.isTwinPort_iff (v : Variant) (p : Nat) :
    v.isTwinPort p = true ↔ match v with | .a16 | .m12 => p = 15 | .n12 => p = 30 ∨ p = 31 := by
  cases v with
  | a16 | m12 => exact decide_eq_true_iff
  | n12 => simp [Variant.isTwinPort]

/-- Settles O16: the partitions' subchannels are as many as the stacks' (`Variant.subs_mul_parts`), so division by N takes the subchannels of
the stacks one to one onto the local subchannels of the partitions. -/
theorem subchannelsHaveOneOwner : Obligations.SubchannelsHaveOneOwner := by
  unfold Obligations.SubchannelsHaveOneOwner
  refine ⟨fun v g => ⟨?size, fun hg => ?owner, fun p j hp hj => ?global⟩, fun v p _ => v.isTwinPort_iff p⟩
  case size => cases v <;> rfl
  case owner => exact ⟨rfl, rfl, subOwner_part_lt hg, subGlobal_subOwner v g, rfl, rfl, subStack_stack_lt hg⟩
  case global => exact ⟨rfl, subOwner_subGlobal p hj, subGlobal_lt hp hj⟩

end Sys2Proof.Machine

/-! ## Semaphores and the wait condition (spec/03, R77) -/

namespace Sys2Proof.Machine

theorem isJobSem_iff (n : Nat) : isJobSem n = true ↔ 8064 ≤ n := decide_eq_true_iff

/-- R77 for a semaphore that R448 does not give to the job: its count is the work stroke's own or none. -/
theorem Part.effective_of_lt (p : Part) (work : Stroke) {n : Nat} (hn : n < 8064) :
    p.effective work n = if (p.sem n).stroke = work then (p.sem n).count.toNat else 0 :=
  if_neg fun hjob => Nat.not_le_of_lt hn ((isJobSem_iff n).mp hjob)

theorem Part.effective_current (p : Part) {work : Stroke} {n : Nat} (hn : n < 8064) (hstroke : (p.sem n).stroke = work) :
    p.effective work n = (p.sem n).count.toNat :=
  (p.effective_of_lt work hn).trans (if_pos hstroke)

theorem Part.effective_earlier (p : Part) {work : Stroke} {n : Nat} (hn : n < 8064) (hstroke : (p.sem n).stroke.toNat < work.toNat) :
    p.effective work n = 0 :=
  (p.effective_of_lt work hn).trans (if_neg fun heq => Nat.ne_of_lt hstroke (congrArg BitVec.toNat heq))

theorem State.waitMet_of_waitEn (s : State) (p : Nat) {h : CmdHdr} (hen : h.waitEn = true) :
    s.waitMet p h = true ↔ h.waitCount.toNat ≤ (s.part p).effective s.su.work h.waitSem.toNat := by
  simp only [State.waitMet, hen, Bool.not_true, Bool.false_or, decide_eq_true_iff]

theorem State.waitMet_of_not_waitEn (s : State) (p : Nat) {h : CmdHdr} (hen : h.waitEn = false) : s.waitMet p h = true := by
  simp only [State.waitMet, hen, Bool.not_false, Bool.true_or]

/-- Settles O5: a semaphore below the job's counts only in its own stroke (`Part.effective_of_lt`), and WAIT_EN alone decides whether the
count is looked at. -/
theorem semaphoreWaitNeedsTheEffectiveCount : Obligations.SemaphoreWaitNeedsTheEffectiveCount := by
  unfold Obligations.SemaphoreWaitNeedsTheEffectiveCount
  intro s p h hsem
  refine ⟨fun hstroke => ?current, fun hstroke => ?earlier, fun hen => ?waits, fun hen => ?free⟩
  case current => exact (s.part p).effective_current hsem hstroke
  case earlier => exact (s.part p).effective_earlier hsem hstroke
  case waits => exact s.waitMet_of_waitEn p hen
  case free => exact s.waitMet_of_not_waitEn p hen

end Sys2Proof.Machine
